-- ==== Sys2Proof/Word.lean ====
section
/-! DEFINITION. Word types of the CX-2048 family: the fixed widths of the numbers, indices and addresses the manual uses. -/

namespace Sys2Proof

/-- One byte of a frame, a buffer or a bundle. -/
abbrev Byte := BitVec 8
/-- A host bus address (Table 11.1: 64-bit DMA addressing). -/
abbrev Addr := BitVec 64
/-- A handle (R12). -/
abbrev Handle := BitVec 32
/-- A global port number (R10). -/
abbrev PortNo := BitVec 10
/-- A global lane number (R10). -/
abbrev LaneNo := BitVec 10
/-- A slice number (R10). -/
abbrev SliceNo := BitVec 4
/-- A quadrant number (R10). -/
abbrev QuadNo := BitVec 2
/-- A class, 0 to 7, 7 the highest (R10). -/
abbrev ClassNo := BitVec 3
/-- A queue or completion-ring number, 0 to 256. -/
abbrev QueueNo := BitVec 9
/-- A time value (R15): SEC, NSEC, FRAC and 16 reserved bits. -/
abbrev TimeVal := BitVec 128
/-- One 64-byte ring entry or record (R295). -/
abbrev Entry := BitVec 512

/-- Pointers in their order, as runs: the first pointer of each run, and how many follow one another (R191). -/
abbrev Runs := List (Nat × Nat)

/-- The finite map every indexed memory of the block is held as: indices strictly rising, and no
entry equal to what an unlisted index reads as. -/
abbrev Tbl (V : Type) := List (Nat × V)

end Sys2Proof
end

