-- ==== Sys2Proof/Types.lean ====
section
/-! DEFINITION. Operand types of the commands: the names, status codes and records that the table's rows carry. -/

namespace Sys2Proof

/-- Operating modes (R32, Table 1.6). -/
inductive Mode where
  | reset | boot | configure | run | safe | lockout
deriving DecidableEq, Repr

/-- Status codes (R315, Table 12.1). -/
inductive Status where
  | ok | busy | stale | denied | unitAbsent | noRoom | badMode | versionLimit | badHandle | badParam
  | notFound | inUse | linkDown | noStage | badSignature | dmaError
deriving DecidableEq, Repr

/-- What a submission entry tells about a command besides its parameters: the queue and ring index it
came by and the TAG its completion returns (Table 11.11). -/
structure Sub where
  queue : QueueNo
  index : BitVec 16
  tag : BitVec 32
deriving DecidableEq, Repr

/-- What the DMA read of a host buffer returned: `none` when the read and its retry failed (R286). -/
abbrev HostData := Option (List Byte)

/-- Cause of a host-interface reset other than through PERST# (R287, HOST_IF_RESET in Table 14.4). -/
inductive HostResetCause where
  | flr | hotReset | linkLoss
deriving DecidableEq, Repr

/-- A fault that the reconciliation sublayer declares (R78, RX_FAULT in Table 3.7). -/
inductive RsFault where
  | none | localFault | remoteFault
deriving DecidableEq, Repr

/-- A legacy transmitter tap (R53). -/
inductive Tap where
  | pre | main | post
deriving DecidableEq, Repr

/-- The partner's coefficient request for a legacy transmitter: the magnitude it asks a tap to take (R55). -/
structure TapRequest where
  tap : Tap
  value : BitVec 8
deriving DecidableEq, Repr

/-- The answer to a coefficient request (R55). -/
inductive TapAnswer where
  | updated | limit | notUpdated
deriving DecidableEq, Repr

/-- Outcome of a unit under self-test (Table 16.8). -/
structure TestedUnit where
  source : BitVec 16
  failed : Bool          -- false: retired under R382
  test : BitVec 8
  addr : BitVec 32
deriving DecidableEq, Repr

/-- What the self-test of step 0x3 found: units tested, and each unit that failed or was retired, in
SOURCE order (R382, R383). -/
structure SelfTestResult where
  tested : BitVec 32
  units : List TestedUnit
deriving DecidableEq, Repr

/-- How the load of a verified bundle ended (R379, R381). -/
inductive LoadResult where
  | loaded
  | readbackFailed (segment : BitVec 8)
  | chipletFailed (chiplet : BitVec 8)
  | keyTestFailed
deriving DecidableEq, Repr

/-- A microcode or memory upset met by a frame or header on its way (R93 to R95, R133): none; a control-store
word that fails parity, a word budget exceeded or a null word, at a store copy (0 the parser, 1 to 8 the stages,
9 Infuser), pipe and micro-PC; or a table entry that fails parity, by table ID, copy and location. -/
inductive Upset where
  | none
  | csParity (store : BitVec 4) (pipe : BitVec 2) (bank : BitVec 1) (word : BitVec 14)
  | budget (store : BitVec 4) (pipe : BitVec 2) (mpc : BitVec 16)
  | nullWord (store : BitVec 4) (pipe : BitVec 2) (mpc : BitVec 16)
  | tableParity (table : BitVec 8) (loc : BitVec 32)
deriving DecidableEq, Repr

/-- A frame as it crosses the ball of a port: its bytes from the destination address through the FCS, and what
the PCS, the MAC and the pipe meet with it. `started`: a cut-through copy had started before the frame's end.
`detAgo` is how long before this step the SFD was detected, in 2^-16 ns of TB; `p` and `h` are P and H of R245 in
2^-16 ns. `hdrRate`: the header found pipe admission above its rate (R36). -/
structure RxFrame where
  port : PortNo
  bytes : List Byte
  codeError : Bool
  fcsGood : Bool
  started : Bool
  detAgo : Nat
  p : Nat
  h : Nat
  cwCorrected : Nat
  cwUncorrected : Nat
  hdrRate : Bool
  pipe : BitVec 2
  upset : Upset
deriving DecidableEq, Repr

/-- How the cells of a buffer were read (R178): a single-bit error corrected, or an uncorrectable one, at a cell. -/
inductive BufEcc where
  | good
  | corrected (cell : BitVec 17)
  | uncorrectable (cell : BitVec 17)
deriving DecidableEq, Repr

/-- A queue of an ingress slice with cells in spill (R189, R197): a VOQ by its number in the slice, or the residue
queue of an egress slice and class. -/
inductive SpillQueue where
  | voq (v : BitVec 13)
  | residue (egress : SliceNo) (cls : ClassNo)
deriving DecidableEq, Repr

/-- How a flow record arrived from HBM (R158). -/
inductive FetchEcc where
  | good | corrected | uncorrectable
deriving DecidableEq, Repr

/-- A record's arrival from HBM, and for each parked header the trap that its routine meets as it resumes (R154, R161). -/
structure FetchResult where
  ecc : FetchEcc
  upsets : List Upset
deriving DecidableEq, Repr

/-- How a spilled frame was read back (R194): `linkLost` carries the spill cells that could not be reached. -/
inductive SpillEcc where
  | good
  | corrected (cell : BitVec 26)
  | dataLost (cell : BitVec 26)
  | linkLost (cell : BitVec 26) (unreached : Nat)
  /-- The ingress cells into which a residue copy is read back, as they are sent (R178). -/
  | buffer (ecc : BufEcc)
deriving DecidableEq, Repr

/-- The walk of a flushed VOQ's spill segment, and what it met on its way (R193, R194). -/
structure FlushWalk where
  voq : BitVec 13
  ecc : SpillEcc
deriving DecidableEq, Repr

/-- A pass of a class's multicast queue, and how its cells are read (R178, R196). -/
structure PassRead where
  cls : ClassNo
  ecc : BufEcc
deriving DecidableEq, Repr

/-- Uncorrectable errors of a chain's spool, in the records that an export takes: which of them, and what was read (R276). -/
abbrev SpoolErrors := List (Nat × BitVec 2048)

/-- An export of a chain's records, and how its slots are read (R273, R274, R276). -/
structure ExportRead where
  chain : BitVec 2
  bad : SpoolErrors
deriving DecidableEq, Repr

/-- The header that a sampling counter captured (R337, Table 13.6). -/
structure Capture where
  flowId : BitVec 64
  version : BitVec 16
  port : BitVec 10
  mpc : BitVec 16
  skid : BitVec 8
  unit_ : BitVec 4
  pipe : BitVec 2
deriving DecidableEq, Repr

/-- What the retry of a failed DMA read of ring entries returned (R286), by the kind of ring; `none` when it failed too. The row
carries the ring's number beside it. -/
inductive RetriedRead where
  /-- Entries of a queue's submission ring. -/
  | submission (read : Option (List Entry))
  /-- How many entries of a completion ring, or of a queue's event ring, from the write index on have O = 1. -/
  | completion (room : Option Nat)
  | event (room : Option Nat)
  /-- How many of the oldest FAULT records on the admin event ring have been returned. -/
  | records (returned : Option Nat)
  /-- How many of the oldest notices of a Strainer have been returned. -/
  | notice (returned : Option Nat)
deriving DecidableEq, Repr

/-- A slice's copy of the time base moves against the hub's, by so much of device time and of TB in 2^-32 ns (R240). -/
structure SliceSlip where
  slice : SliceNo
  dev : Int
  tb : Int
deriving DecidableEq, Repr

/-- Ticks of the time clock, and the slices' copies that slip at the last of them (R224, R240). -/
structure Ticks where
  count : Nat
  slips : List SliceSlip
deriving DecidableEq, Repr

/-- A ring that raises interrupts. -/
inductive RingId where
  | completion (cq : QueueNo)
  | event (queue : QueueNo)
  | notice (q : QuadNo)
deriving DecidableEq, Repr

/-- A bank or register group as the scrub of a wake read it (R365, R366): its source block, the content bits of Table 15.5, the first
and last index of the table entries or registers that it holds, its two canary words, and whether one of its words failed parity
or had an uncorrectable error. A bank that no entry describes was read as it was left. -/
structure ScrubbedBank where
  source : BitVec 16
  content : BitVec 32
  first : Nat
  last : Nat
  canary : BitVec 32 × BitVec 32
  bad : Bool
deriving DecidableEq, Repr

/-- The end of a die-to-die link that reports its errors (R412): a core die's adapter (0 to 3) or a chiplet's. -/
inductive D2dLink where
  | core (q : QuadNo) (adapter : BitVec 2)
  | chiplet (c : BitVec 3)
deriving DecidableEq, Repr

/-- A die-to-die link error (R21); a failed link loses the frames in flight on it. -/
inductive D2dError where
  | crcCorrected (lane : BitVec 8)
  | laneRepaired (lane : BitVec 8)
  | linkFailed
deriving DecidableEq, Repr

end Sys2Proof
end

