-- ==== Sys2Proof/Syntax.lean ====
section
/-! DEFINITION. The commands of the block: one constructor per row of spec/opcode_table.json, in the table's order.
Commands of the command set carry the submission they came by and the fields of their parameter block
(chapter 12); where one reads a host buffer, `data` is what the read returned. Event rows carry what the
environment decides. -/

namespace Sys2Proof

/-- The commands of the block. -/
inductive Instr where
  -- Group 0x00, admin (Table 12.2)
  | nop (sub : Sub)
  | modeSet (sub : Sub) (target : BitVec 3)
  | queueCreate (sub : Sub) (sqBase eqBase : Addr) (cq : Handle) (pollNs : BitVec 30) (domain : BitVec 2)
      (sqExp eqExp : BitVec 5) (eqVec : BitVec 8) (eqIrq : BitVec 1)
  | queueDestroy (sub : Sub) (queue : Handle)
  | cqCreate (sub : Sub) (base : Addr) (pollNs : BitVec 30) (exp : BitVec 5) (vec : BitVec 8) (irq : BitVec 1)
      (coalNs : BitVec 16)
  | cqDestroy (sub : Sub) (cq : Handle)
  | protSet (sub : Sub) (value : BitVec 32) (domain : BitVec 2)
  | queueStatusGet (sub : Sub) (queue : Handle)
  -- Group 0x01, ports and lanes (Table 12.3)
  | portCreate (sub : Sub) (slice : Handle) (firstLane : BitVec 6) (typ : BitVec 4)
  | portDestroy (sub : Sub) (port : Handle)
  | portStatusGet (sub : Sub) (port : Handle)
  | portAttrSet (sub : Sub) (port : Handle) (attr : BitVec 32)
  | portHoldClear (sub : Sub) (port : Handle)
  | laneStatusGet (sub : Sub) (buf : Addr) (port : Handle) (lane : BitVec 3)
  | laneCfgSet (sub : Sub) (port : Handle) (lane : BitVec 3) (rxInvert txInvert txCtl : BitVec 1)
      (cPre cMain cPost : BitVec 8) (timeout : BitVec 16)
  | laneCfgGet (sub : Sub) (port : Handle) (lane : BitVec 3)
  | laneAdaptCtl (sub : Sub) (port : Handle) (lane : BitVec 3) (action : BitVec 2)
  | laneRetireClear (sub : Sub) (port : Handle) (lane : BitVec 3)
  | laneSerCfg (sub : Sub) (port : Handle) (window : BitVec 14) (thresh : BitVec 24)
  -- Group 0x02, tables (Table 12.4)
  | hostAdd (sub : Sub) (entry : BitVec 256)
  | hostDelete (sub : Sub) (key : BitVec 192)
  | search (sub : Sub) (key : BitVec 310) (copy : BitVec 4) (tabId : BitVec 8) (bufBlk : BitVec 58)
  | next (sub : Sub) (cursor : BitVec 64) (buf : Addr) (tabId : BitVec 8) (copy : BitVec 4) (count : BitVec 7)
  | flushByPort (sub : Sub) (port : Handle) (vlan : BitVec 12) (includeStatic : BitVec 1) (tabId : BitVec 8)
  | lpmAdd (sub : Sub) (key : BitVec 136) (resKind : BitVec 2) (resIndex : BitVec 16) (tabId : BitVec 8)
  | lpmDelete (sub : Sub) (key : BitVec 136) (resKind : BitVec 2) (resIndex : BitVec 16) (tabId : BitVec 8)
  | tableInfo (sub : Sub) (tabId : BitVec 8) (copy : BitVec 4)
  -- Group 0x03, rule sets, and CS_STAGE_LOAD (Table 12.6)
  | rulesetOpen (sub : Sub)
  | rulesetCommit (sub : Sub) (waitLimit : BitVec 32) (wait : BitVec 1)
  | rulesetAbort (sub : Sub)
  | versionStatusGet (sub : Sub)
  | keyProfileSet (sub : Sub) (profile : BitVec 4) (count : BitVec 5) (extracts : BitVec 176)
  | parseNodeSet (sub : Sub) (def_ : BitVec 128)
  | csStageLoad (sub : Sub) (buf : Addr) (len : BitVec 32) (storeMask : BitVec 10) (data : HostData)
  -- Group 0x04, flows (Table 12.7)
  | flowProfileSet (sub : Sub) (buf : Addr) (profile : BitVec 6) (data : HostData)
  | flowProfileGet (sub : Sub) (buf : Addr) (profile : BitVec 6)
  | flowInstall (sub : Sub) (buf : Addr) (replace : BitVec 1) (data : HostData)
  | flowDelete (sub : Sub) (key : BitVec 310)
  | flowGet (sub : Sub) (buf : Addr) (flowId : BitVec 64) (loc : BitVec 26)
  | flowStatusGet (sub : Sub) (quad : QuadNo)
  -- Group 0x05, buffers, scheduling and gates (Table 12.8)
  | bufClassSet (sub : Sub) (slice : Handle) (cls : ClassNo) (fields : BitVec 32)
  | bufClassGet (sub : Sub) (slice : Handle) (cls : ClassNo)
  | voqFlush (sub : Sub) (voq : Handle)
  | gateListSet (sub : Sub) (base : TimeVal) (cycle : BitVec 32) (count : BitVec 11) (buf : Addr) (gate : Handle)
      (data : HostData)
  | gateListGet (sub : Sub) (gate : Handle) (bufLen : BitVec 32) (buf : Addr)
  | gateListAbort (sub : Sub) (gate : Handle)
  -- Groups 0x06 and 0x07, time and audit (Table 12.9)
  | ptpTx (sub : Sub) (buf : Addr) (port : Handle) (len : BitVec 16) (ptpOff csumOff : BitVec 10) (cls : ClassNo)
      (mode : BitVec 3) (ref : TimeVal) (data : HostData)
  | tsCalGet (sub : Sub) (port : Handle)
  | audCertGet (sub : Sub) (buf : Addr) (bufLen : BitVec 32)
  | audBufPost (sub : Sub) (addr : Addr) (len : BitVec 32) (chain : BitVec 2)
  | audBufReclaim (sub : Sub) (chain : BitVec 2)
  | audStatusGet (sub : Sub) (chain : BitVec 2)
  -- Groups 0x08, 0x09 and 0x0A, counters, faults and power (Table 12.10)
  | ctrSnapshot (sub : Sub) (buf : Addr) (firstPage : BitVec 16) (pages : BitVec 9)
  | sctrSet (sub : Sub) (sctr : Handle) (event eventQueue : BitVec 16) (en : BitVec 1) (thresh : BitVec 64)
  | sctrGet (sub : Sub) (sctr : Handle)
  | faultAck (sub : Sub) (msg : BitVec 128)
  | faultListGet (sub : Sub) (buf : Addr) (bufLen : BitVec 32)
  | faultWindowSet (sub : Sub) (kind : BitVec 10) (window : BitVec 16) (thresh : BitVec 8)
  | faultInject (sub : Sub) (msg : BitVec 128)
  | pwrVote (sub : Sub) (domain : Handle) (take : BitVec 1)
  | pwrStatusGet (sub : Sub) (domain : Handle)
  -- Groups 0x0B and 0x0F, diagnostics and firmware (Table 12.11)
  | selfTest (sub : Sub) (buf : Addr) (bufLen : BitVec 32) (found : SelfTestResult)
  | eyeScanStart (sub : Sub) (buf : Addr) (bufLen : BitVec 32) (port : Handle) (lane : BitVec 3) (eye : BitVec 2)
      (dwellExp : BitVec 6) (vMin vMax vStep pMin pMax pStep : BitVec 8) (errStop : BitVec 32)
  | eyeScanStatus (sub : Sub) (port : Handle) (scanId : BitVec 16)
  | eyeScanAbort (sub : Sub) (port : Handle) (scanId : BitVec 16)
  | laneTestCtl (sub : Sub) (port : Handle) (lane : BitVec 3) (start : BitVec 1) (pattern : BitVec 4)
      (loop : BitVec 2) (genEn chkEn : BitVec 1)
  | bundleLoad (sub : Sub) (buf : Addr) (len : BitVec 32) (data : HostData) (result : LoadResult)
  | bundleInfoGet (sub : Sub)
  | flashUpdate (sub : Sub) (buf : Addr) (len : BitVec 32) (data : HostData)
  -- The Table Access Window (R125): the value written to TAW_CMD, and the TAW writes that arrived while BUSY
  | tawRead (cmd : BitVec 64) (overruns : Nat)
  | tawWrite (cmd : BitVec 64) (overruns : Nat)
  | tawDelete (cmd : BitVec 64) (overruns : Nat)
  -- Register accesses of BAR0
  | registerWrite (offset : BitVec 24) (enables : BitVec 4) (value : BitVec 32)
  | domCfgWrite (value : BitVec 32)
  | portEnable (port : PortNo) (cfg : BitVec 64)
  | portDisable (port : PortNo) (cfg : BitVec 64)
  | puntMeterWrite (port : PortNo) (value : BitVec 64)
  | sampleCfgWrite (port : PortNo) (value : BitVec 64)
  | timeIncWrite (value : BitVec 64)
  | timeAdjWrite (value : BitVec 64)
  | timeSet (sec ns : BitVec 64)
  | timeCtlWrite (value : BitVec 64)
  | timeNowLatch
  | ppsInLatch
  | ppsInLatchRelease
  | fwStatusLatch
  | pwrResetCauseRead
  | adminEnable (value : BitVec 64)
  | adminDisable (value : BitVec 64)
  | strainerEnable (q : QuadNo) (value : BitVec 64)
  | strainerDisable (q : QuadNo) (value : BitVec 64)
  | flush (q : QuadNo)
  | rstCtlWrite (value : BitVec 32)
  -- Pins, PCIe, reset and boot
  | resetNLow
  | resetNRise
  | perstAssert
  | hostIfReset (cause : HostResetCause)
  | powerOn
  | resetExit
  | bootStart (bootSrc testMode : Bool) (otpGood : Bool) (found : SelfTestResult)
  | bootBundleLoaded (result : LoadResult)
  -- Lanes and links
  | signalDetectAssert (lane : LaneNo)
  | signalDetectDeassert (lane : LaneNo)
  | autonegComplete (port : PortNo)
  | trainComplete (port : PortNo) (presets : List (Option (BitVec 8))) (requests : List (List TapRequest))
  | alignLock (port : PortNo) (skews : List (BitVec 32))
  | alignmentLost (port : PortNo)
  | rsFaultReceived (port : PortNo) (fault : RsFault)
  | linkUp (port : PortNo)
  | stampCalibration (port : PortNo) (dRx dTx bound : BitVec 32)
  | trainTimeoutExpiry (port : PortNo)
  | alignTimeout (port : PortNo)
  | backoffExpiry (port : PortNo)
  | recoverEntry (lane : LaneNo)
  | recoverExit (lane : LaneNo)
  | recoverTimeout (lane : LaneNo)
  | freezeTimeout (lane : LaneNo)
  | testAcquired (lane : LaneNo) (bitErrors : BitVec 64)
  | serWindowEnd (lane : LaneNo) (corrected : Nat) (symbols : Nat)
  | flapHoldDown (port : PortNo)
  | holdTimeExpiry (port : PortNo)
  | eyeScanPointDone (lane : LaneNo) (errors : Nat) (compared : Nat)
  -- Frames and flow control
  | frameReceive (rx : RxFrame)
  | pfcReceive (port : PortNo) (enable : BitVec 8) (quanta : List (BitVec 16)) (octets : Nat)
  | pauseReceive (port : PortNo) (quanta : BitVec 16) (octets : Nat)
  | pauseExpiry (port : PortNo) (cls : ClassNo)
  | pfcStorm (port : PortNo) (cls : ClassNo)
  | pfcStormEnd (port : PortNo) (cls : ClassNo)
  | pfcXoffRepeat (port : PortNo) (cls : ClassNo)
  -- Infuser
  | infuserHeader (partition : SliceNo) (upset : Upset)
  | fetchReturn (partition : SliceNo) (loc : BitVec 25) (result : FetchResult)
  | flowFetchTimeout (partition : SliceNo) (loc : BitVec 25)
  | flowSweep (partition : SliceNo)
  -- Tables, learning and versions
  | learnRequest (q : QuadNo)
  | moveWindowBoundary
  | ageSweep
  | csParityRepair (source : BitVec 16) (bank : BitVec 1) (word : BitVec 14) (copyGood : Bool)
  | tableParityRepair (table : BitVec 8) (copy : BitVec 4) (loc : BitVec 32) (copyGood : Bool)
  | commitResume
  | commitWaitLimit
  | versionDrained
  | verDrainSlow
  -- The switch core
  | grant (port : PortNo) (ecc : BufEcc)
  | fabricCell (slice : SliceNo) (idx : Nat)
  | fabricSeqTimeout (slice inSlice : SliceNo)
  | planeFail (q : QuadNo) (plane : BitVec 3)
  | transmitDecision (port : PortNo) (pPrime : Nat) (arriving : BitVec 8)
  | frameTransmit (port : PortNo) (ecc : BufEcc) (crossed : Bool)
  | spillReadback (slice : SliceNo) (queue : SpillQueue) (ecc : SpillEcc)
  | caddyRefill (q : QuadNo)
  | caddyWriteback (q : QuadNo)
  | spillBuildDone (q : QuadNo)
  | flushWalkDone (slice : SliceNo) (walk : FlushWalk)
  | mcPass (slice : SliceNo) (pass : PassRead)
  | mcSplit (slice : SliceNo) (cls : ClassNo)
  | gateListStart (port : PortNo)
  | gateEntryChange (port : PortNo)
  -- Time
  | timeTick (ticks : Ticks)
  | timeCheckpoint (slips : List SliceSlip)
  | ppsInEdge (quarter : BitVec 3)
  | ppsSeenTimeout
  | ppsOutRise
  | ppsOutFall
  | refLock
  | refLoss
  | holdValidExpiry
  -- Audit and telemetry
  | auditCheckpointCount (chain : BitVec 2)
  | auditCheckpointTimer (chain : BitVec 2)
  | checkpointSigned (chain : BitVec 2) (engineOk : Bool)
  | auditBufHandback (export_ : ExportRead)
  | auditExportFrame (export_ : ExportRead)
  | postcardFrame (slice : SliceNo)
  | sctrCrossing (sctr : BitVec 9)
  | sctrCapture (sctr : BitVec 9) (capture : Capture)
  -- Rings
  | queuePoll (queue : QueueNo) (read : Option (List Entry))
  | lapReread (queue : QueueNo) (read : Option Entry)
  | commandStart (queue : QueueNo)
  | completionWrite (cq : QueueNo)
  | cqPoll (cq : QueueNo) (room : Option Nat)
  | eventRingPoll (queue : QueueNo) (room : Option Nat)
  | faultRecordPoll (returned : Option Nat)
  | strainerBankSwap (q : QuadNo)
  | strainerItemWritten (q : QuadNo)
  | strainerNoticePoll (q : QuadNo) (returned : Option Nat)
  | irqHoldoffEnd (ring : RingId)
  | dmaRetry (ring : QueueNo) (read : RetriedRead)
  -- Faults and power
  | faultMessage (msg : Option (BitVec 128))
  | faultWindowEnd (source : BitVec 16) (kind : BitVec 10) (gen : BitVec 8)
  | domainHoldoffExpiry (dom : BitVec 6)
  | domainWakeDone (dom : BitVec 6) (banks : List ScrubbedBank)
  | supplyDipStart (rail : BitVec 3)
  | supplyDipEnd (rail : BitVec 3) (minPm : BitVec 10) (durationNs : Nat)
  | supplyReset (rail : BitVec 3)
  | thermtrip (sensor : BitVec 4)
  | tapInstruction (ir : BitVec 8)
  | switchTime
  | refclkLoss (g : BitVec 4)
  | refclkReturn (g : BitVec 4)
  | perstDeassert
  | d2dLinkError (link : D2dLink) (err : D2dError)
  | domainDropDone (dom : BitVec 6)
deriving DecidableEq, Repr

end Sys2Proof
end

