-- ==== Sys2Proof/Config.lean ====
section
/-! DEFINITION. What the manual leaves open: free values and the functions the manual names without defining them.
None has a body, so no proof can see one. -/

namespace Sys2Proof.Config

/-- Draw number `n` of a free value of `w` bits (assumption 1): hash keys, nonces, canaries, SCAN_IDs, random
countdowns and every value that the manual calls undefined or does not state. -/
opaque freeBits (w n : Nat) : BitVec w

/-- H of R128: the 128-bit keyed hash of a HOST key type and key. -/
opaque hostHash (key : BitVec 128) (typ val : Nat) : BitVec 128

/-- FH of R147: the 64-bit keyed hash of a canonical flow key, in the bits of Table 6.2. -/
opaque flowHash (key : BitVec 128) (flowKey : BitVec 288) (proto : BitVec 8) (scope : BitVec 12) (v6 : Bool) : BitVec 64

/-- h of R123: a hash of the L3 addresses, the protocol and the L4 ports. -/
opaque memberHash (src dst : BitVec 128) (proto : BitVec 8) (sport dport : BitVec 16) : BitVec 64

/-- The two words of a canary, derived from the value drawn for a drop (R364). -/
opaque canaryWords (value : BitVec 32) : BitVec 32 × BitVec 32

/-- The chain of relocations that an insertion finds (R130), as moves from a location to a location. -/
opaque relocChain (n : Nat) : List (Nat × Nat)

/-- The location index from which a new route of LPM4 or LPM6, whose storage the manual calls internal (Table 5.1), looks for
a free one. -/
opaque lpmLoc (v6 : Bool) (key : Nat) : BitVec 26

/-- The DER device and intermediate certificates (R271). -/
opaque deviceCert : List (BitVec 8)
opaque intermediateCert : List (BitVec 8)

/-- Deterministic ECDSA over P-384 with the device key on a SHA-384 digest (R270): s in [767:384] and r in [383:0] of bits
whose low byte is the first byte of each. -/
opaque deviceSign (digest : List (BitVec 8)) : BitVec 768

/-- A signature of Table 16.4 is valid ECDSA P-384 on a SHA-384 digest under a public key (R377). -/
opaque signatureValid (pubKey sigR sigS digest : List (BitVec 8)) : Bool

/-- The firmware-key digest fused at manufacture (R377). -/
opaque firmwareKeyDigest : List (BitVec 8)

/-- Limzel's assigned manufacturer identity in IDCODE, which the manual does not print (R403). -/
opaque manufacturerId : BitVec 11

end Sys2Proof.Config
end

