-- ==== Sys2Proof/Machine/Bits.lean ====
section
/-! DEFINITION. Bit fields, packed words and byte strings (R8, R9): how the model reads and writes the fields of the
manual's tables. -/

namespace Sys2Proof.Machine

/-- The number in bits `[hi:lo]` of a word. -/
def fld {n : Nat} (x : BitVec n) (hi lo : Nat) : Nat := (x.toNat >>> lo) % 2 ^ (hi + 1 - lo)

/-- Bit `i` of a word. -/
def bitAt {n : Nat} (x : BitVec n) (i : Nat) : Bool := x.toNat.testBit i

/-- A word with bits `[hi:lo]` replaced by `v`. -/
def setFld {n : Nat} (x : BitVec n) (hi lo v : Nat) : BitVec n :=
  let m := 2 ^ (hi + 1 - lo)
  BitVec.ofNat n (x.toNat - ((x.toNat >>> lo) % m) * 2 ^ lo + (v % m) * 2 ^ lo)

/-- A word from its fields `(hi, lo, value)`, every other bit 0. -/
def pack (n : Nat) (fs : List (Nat × Nat × Nat)) : BitVec n :=
  BitVec.ofNat n (fs.foldl (fun a f => a ||| ((f.2.2 % 2 ^ (f.1 + 1 - f.2.1)) <<< f.2.1)) 0)

/-- `v`, or the largest number of `w` bits when `v` is larger: a saturating field. -/
def sat (w v : Nat) : Nat := min v (2 ^ w - 1)

/-- The `k` low bytes of a number, least significant first (R9). -/
def leBytes : Nat → Nat → List Byte
  | 0, _ => []
  | k + 1, v => BitVec.ofNat 8 v :: leBytes k (v / 256)

/-- A little-endian byte string as a number (R9). -/
def leNat : List Byte → Nat
  | [] => 0
  | b :: bs => b.toNat + 256 * leNat bs

/-- A byte string in frame order as a number: its first byte is the most significant (R9). -/
def beNat (bs : List Byte) : Nat := bs.foldl (fun a b => a * 256 + b.toNat) 0

/-- The `k` low bytes of a number, most significant first. -/
def beBytes (k v : Nat) : List Byte := (leBytes k v).reverse

/-- Bytes `off` to `off + len - 1` of a byte string. -/
def slice (bs : List Byte) (off len : Nat) : List Byte := (bs.drop off).take len

/-- The number at bytes `off` to `off + len - 1` of a frame. -/
def beAt (bs : List Byte) (off len : Nat) : Nat := beNat (slice bs off len)

/-- A frame with the bytes from `off` on replaced by `new`. -/
def patch (bs : List Byte) (off : Nat) (new : List Byte) : List Byte :=
  bs.take off ++ new ++ bs.drop (off + new.length)

/-- A byte string extended with zeros to a multiple of `k` bytes. -/
def padTo (k : Nat) (bs : List Byte) : List Byte :=
  bs ++ List.replicate ((k - bs.length % k) % k) 0

/-- Least multiple of `k` that is not below `v`. -/
def roundUp (k v : Nat) : Nat := (v + k - 1) / k * k

/-- The number of 1 bits among the `w` low bits. -/
def popCount : Nat → Nat → Nat
  | 0, _ => 0
  | w + 1, v => v % 2 + popCount w (v / 2)

/-- The bits that are 1 among the `w` low bits, rising. -/
def bitsSet (w v : Nat) : List Nat := (List.range w).filter (fun i => v.testBit i)

end Sys2Proof.Machine
end

