-- ==== Sys2Proof/Machine/Map.lean ====
section
/-! DEFINITION. The finite maps that hold every indexed memory: `val` reads, `ins` and `del` write, `put` writes and
keeps the canonical form (an entry equal to what an unlisted index reads as is removed). -/

namespace Sys2Proof.Machine.Map

/-- The value at an index, `none` where the index is not listed. -/
def find {V : Type} (t : Tbl V) (k : Nat) : Option V :=
  match t with
  | [] => none
  | (i, v) :: r => if i = k then some v else if i < k then find r k else none

/-- The value at an index, `d` where the index is not listed. -/
def val {V : Type} (t : Tbl V) (k : Nat) (d : V) : V := (find t k).getD d

/-- The map with `v` at index `k`. -/
def ins {V : Type} (t : Tbl V) (k : Nat) (v : V) : Tbl V :=
  match t with
  | [] => [(k, v)]
  | (i, w) :: r => if i < k then (i, w) :: ins r k v else if i = k then (k, v) :: r else (k, v) :: (i, w) :: r

/-- The map without index `k`. -/
def del {V : Type} (t : Tbl V) (k : Nat) : Tbl V :=
  match t with
  | [] => []
  | (i, w) :: r => if i < k then (i, w) :: del r k else if i = k then r else (i, w) :: r

/-- The map with `v` at index `k`, where an unlisted index reads as `d`. -/
def put {V : Type} [DecidableEq V] (d : V) (t : Tbl V) (k : Nat) (v : V) : Tbl V :=
  if v = d then del t k else ins t k v

/-- The map with index `k` updated by `f`, where an unlisted index reads as `d`. -/
def upd {V : Type} [DecidableEq V] (d : V) (t : Tbl V) (k : Nat) (f : V → V) : Tbl V :=
  put d t k (f (val t k d))

/-- The map with index `k` updated by `f` where it is listed. -/
def adjust {V : Type} (t : Tbl V) (k : Nat) (f : V → V) : Tbl V :=
  match t with
  | [] => []
  | (i, w) :: r => if i = k then (i, f w) :: r else (i, w) :: adjust r k f

/-- Indices strictly rising. -/
def rising {V : Type} : Tbl V → Bool
  | [] => true
  | [_] => true
  | (i, _) :: (j, w) :: r => decide (i < j) && rising ((j, w) :: r)

/-- The canonical form: indices strictly rising, and no entry equal to `d`. -/
def wf {V : Type} [DecidableEq V] (d : V) (t : Tbl V) : Bool := rising t && t.all (fun e => decide (e.2 ≠ d))

/-- The lowest of `n` indices from `k` on that is not listed. -/
def lowestFree {V : Type} (t : Tbl V) : Nat → Nat → Option Nat
  | 0, _ => none
  | n + 1, k => if (find t k).isSome then lowestFree t n (k + 1) else some k

end Sys2Proof.Machine.Map
end

