-- ==== Sys2Proof/Machine/AuditTypes.lean ====
section
/-! DEFINITION. State of the Time Audit Unit (chapter 10). -/

namespace Sys2Proof.Machine

/-- A record of a chain: its epoch by count, SEQ, its slots (1, or 4 for a checkpoint), its bits with byte 0 lowest, what has
taken it, and whether it may be exported (a checkpoint waits for its signature, R270). -/
structure ARec where
  epoch : Nat
  seq : BitVec 64
  slots : Nat
  bits : BitVec 2048
  hostTaken : Bool
  portSent : Option Nat        -- in the export frame of this number, which has not yet left the ball
  portTaken : Bool
  ready : Bool
  readyNs : Option Nat         -- TB_NS from which an export could take it
deriving DecidableEq, Repr

/-- A run of frames without records (R275). -/
structure GapRun where
  missing : BitVec 64
  holdDropped : BitVec 32
  rate : Bool
  first : TimeVal
  last : TimeVal
deriving DecidableEq, Repr

/-- The host export buffer in use (R273); TB_NS at which its first slot was written. -/
structure ExportBuf where
  addr : Addr
  len : Nat
  startNs : Nat
deriving DecidableEq, Repr

/-- A chain (R259 to R282). -/
structure Chain where
  seq : BitVec 64              -- next SEQ
  hash : BitVec 256            -- C of the last record
  spool : List ARec            -- unexported, in SEQ order
  resHold : List ARec
  resSys : List ARec
  full : Bool
  gap : Option GapRun
  inLevel : Nat                -- fill of the input queue at the unit's `inNs`, in 1/30 record
  prevCp : BitVec 64
  sinceCp : Nat
  cpNs : Nat                   -- TB_NS of the last checkpoint
  missing : BitVec 64
  skipped : BitVec 32
  reserveRaised : Bool
  ppsMax : BitVec 64
  ppsLast : BitVec 64
  ppsEdges : BitVec 8
  sawAdapt : Bool
  sawSupply : Bool
  sawSlip : Bool
  sawStep : Bool
  qualSeen : BitVec 5
  lastCp : BitVec 64
  lastCpTime : TimeVal
  posted : List (Addr × Nat)
  buf : Option ExportBuf
  exports : Nat                -- the model's own: export frames made, which numbers them
deriving DecidableEq, Repr

/-- The Time Audit Unit: the epoch's NONCE while one is open, the count of epochs opened, the cause that waits for a TIME_SET, and the
registers of Tables 10.7 and 10.8. -/
structure AuditState where
  nonce : Option (BitVec 128)
  epochs : Nat                 -- the model's own: orders unexported records of several epochs
  awaiting : Option (BitVec 8)
  signFailed : Bool            -- both signing engines have failed (R270)
  inNs : Nat                   -- TB_NS at which the chains' input queues had their `inLevel`
  chains : Tbl Chain
  cfg : BitVec 64
  expHdr : BitVec 128
deriving DecidableEq, Repr

end Sys2Proof.Machine
end

