-- ==== Sys2Proof/Machine/HostTypes.lean ====
section
/-! DEFINITION. State of the host interface: queues, completion rings, event rings, admin registers and Strainers (chapter 11). -/

namespace Sys2Proof.Machine

/-- What leaves the device towards the host, the links or the board; the model's own record of it. -/
inductive Out where
  /-- One 64-byte ring record, written as one memory write (R285). -/
  | record (addr : Addr) (entry : Entry)
  /-- A DMA write of a result, export or Strainer buffer. -/
  | dma (addr : Addr) (bytes : List Byte)
  /-- An MSI-X message with its vector. -/
  | msix (vector : BitVec 8)
  /-- A register or latch read value returned on PCIe. -/
  | read (offset : BitVec 24) (value : BitVec 128)
  /-- A frame whose last byte left a port; `errored` when it was ended with an error code (R77). -/
  | frame (port : PortNo) (bytes : List Byte) (errored : Bool)
  /-- A pause frame, or a PFC frame for one class, that the device sends (R81). -/
  | pause (port : PortNo) (cls : Option ClassNo) (quanta : BitVec 16)
  /-- The answer that a lane gives to a coefficient request of its partner (R55). -/
  | tapAnswer (lane : LaneNo) (answer : TapAnswer)
deriving DecidableEq, Repr

/-- A completion that has been decided and not yet written (Table 11.12). -/
structure Comp where
  queue : QueueNo
  index : BitVec 16
  tag : BitVec 32
  status : Status
  rlen : BitVec 8
  result : BitVec 384
deriving DecidableEq, Repr

/-- A command in execution: its submission index and tag, its opcode and parameters, whether a handle
it names was found stale at its start (R317), whether it has begun to act (R322), and the domains it holds
COMMAND votes on (R361). -/
structure Exec where
  index : BitVec 16
  tag : BitVec 32
  opcode : BitVec 16
  param : BitVec 384
  stale : Bool
  begun : Bool
  votes : List Nat
deriving DecidableEq, Repr

/-- A command in execution when the host interface was reset (R287): it runs to the end of its effects, and nothing reports
it. `client` is the handle its COMMAND votes carry. -/
structure Orphan where
  queue : QueueNo
  client : Handle
  exec : Exec
deriving DecidableEq, Repr

/-- An event that has been posted (Table 11.13): its kind, source handle, payload and TB_NS of posting. -/
structure Event where
  kind : BitVec 16
  src : Handle
  payload : BitVec 320
  postNs : BitVec 64
deriving DecidableEq, Repr

/-- Interrupt holdoff of a ring: TB_NS until which no further message is sent, and whether a record was
written meanwhile. -/
structure Irq where
  vector : BitVec 8
  enabled : Bool
  holdNs : Nat          -- length of the holdoff
  untilNs : Nat
  owed : Bool
deriving DecidableEq, Repr

/-- How the reads of a ring that the device writes stand (R286): they go on; one has failed and waits for its retry; or the
retry failed too, and the ring is read no more. -/
inductive RingReads where
  | live | retry | stopped
deriving DecidableEq, Repr

/-- The read of a submission ring that has failed and waits for its retry (R286): none, one of entries from the end of the
read window on, or the re-read of an entry with a wrong LAP. -/
inductive FailedRead where
  | none | window | lap
deriving DecidableEq, Repr

/-- An event ring (R303). `room` counts the entries read with O = 1 and not yet written. -/
structure EvRing where
  base : Addr
  exp : BitVec 5
  irq : Irq
  index : BitVec 16
  lap : BitVec 8
  room : Nat
  reads : RingReads
  held : List Event
  dropped : List (Nat × Nat)   -- per dropped kind: events dropped since the last one delivered
deriving DecidableEq, Repr

/-- A queue's own state (Table 11.10); STALLED is a property of its completion ring. -/
inductive QState where
  | running | halted | destroying | stopped
deriving DecidableEq, Repr

/-- A queue (R291 to R303). `fetched` is the read window: the entries read from the fetch index on that have not been
executed, in index order (R298). -/
structure Queue where
  domain : BitVec 2
  sqBase : Addr
  sqExp : BitVec 5
  pollNs : BitVec 30
  cq : QueueNo
  state : QState
  index : BitVec 16
  lap : BitVec 8
  fetched : List Entry
  windowed : Bool              -- a poll found work, and the device keeps its read window (step 2 of R298)
  failedRead : FailedRead
  inExec : List Exec
  events : Option EvRing
  stallNs : Nat                -- TB_NS spent stalled by its ring
  createdNs : Nat
deriving DecidableEq, Repr

/-- A completion ring (R301). `finished` holds finished commands whose completion is to be written, `held`
the completions held on chip because the ring's next entry has O = 0. -/
structure CRing where
  base : Addr
  exp : BitVec 5
  pollNs : BitVec 30
  irq : Irq
  index : BitVec 16
  lap : BitVec 8
  room : Nat
  reads : RingReads
  finished : List Comp
  held : List Comp
  stalledAt : Option Nat
  oweStall : Option Nat        -- a COMPLETION_STALL waiting for room: TB_NS of the stall
  oweResume : Option Nat       -- a COMPLETION_RESUME waiting for room: its duration
deriving DecidableEq, Repr

/-- One item of a Strainer bank (R308): its header without the ARRIVAL order it was given, its captured
bytes padded to 64, its priority, and that order. -/
structure SItem where
  header : Entry
  bytes : List Byte
  prio : BitVec 3
  arrival : BitVec 64
  kind : BitVec 4
  inPort : PortNo
deriving DecidableEq, Repr

/-- A Strainer (R307 to R310). -/
structure Strainer where
  areaBase : Addr
  nringBase : Addr
  cfg : BitVec 64              -- STR_CFG (Table 11.18)
  fillBank : Bool
  fill : List SItem
  drain : List SItem
  inProgress : Option SItem    -- an item part-way into the area
  areaOff : Nat
  areaUsed : List (Nat × Nat)  -- offset and length of items whose notice is not yet returned, oldest first
  room : Nat
  reads : RingReads
  index : BitVec 16
  lap : BitVec 8
  arrival : BitVec 64          -- the last ARRIVAL given
  dropped : BitVec 64          -- items dropped for a full bank since the previous notice
  irq : Irq
deriving DecidableEq, Repr

/-- The Table Access Window (R125). -/
structure Taw where
  cmd : BitVec 64
  data : Tbl (BitVec 32)       -- TAW_DATA[0 to 15]
  status : BitVec 16
  overrun : Bool
deriving DecidableEq, Repr

/-- The host interface. -/
structure HostState where
  adminSq : Addr
  adminCq : Addr
  adminEq : Addr
  adminCtl : BitVec 64
  adminRunning : Bool
  adminHalted : Bool
  queues : Tbl Queue
  cqs : Tbl CRing
  queueGen : Tbl (BitVec 8)
  cqGen : Tbl (BitVec 8)
  retiring : List Handle       -- handles named by a destroy command in execution (R318)
  orphans : List Orphan
  prot : Tbl (BitVec 32)       -- PROT[0 to 3]
  pageUser : List Nat          -- CTR_PAGE_USER: the pages whose bit is 1, rising
  msixTable : Tbl (BitVec 96)  -- MSI-X table entries by vector: message address and data (R283); an unlisted one is 0
  msixMask : BitVec 256
  msixPend : BitVec 256
  latch : Tbl (BitVec 32)      -- latches of wide registers (R31), by BAR0 offset; one not listed holds its register's value
  taw : Taw
deriving DecidableEq, Repr

end Sys2Proof.Machine
end

