-- ==== Sys2Proof/Machine/PortTypes.lean ====
section
/-! DEFINITION. State of lanes, ports, VOQs and slices (chapters 02, 03, 07, 08, 13). -/

namespace Sys2Proof.Machine

/-- Lane states (Table 2.3). -/
inductive LaneState where
  | off | listen | autoneg | train | align | up | backoff | retired | test
deriving DecidableEq, Repr

/-- Adaptation states (Table 2.5). -/
inductive Adapt where
  | off | acquire | track | recover | frozen
deriving DecidableEq, Repr

/-- An eye scan in progress (R64 to R67). -/
structure Scan where
  id : BitVec 16
  queue : QueueNo
  port : Handle
  laneIdx : BitVec 3
  param : BitVec 256        -- the parameters of Table 2.11
  v : Int                   -- voltage and phase offset of the point in progress (R66)
  p : Int
  points : Nat              -- complete points
  startTime : TimeVal
  endTime : TimeVal
  recover : Bool            -- adaptation was in RECOVER during the point in progress
  done : Option (BitVec 8)  -- outcome whose EYE_SCAN_DONE waits for its event ring
deriving DecidableEq, Repr

/-- A running lane test (R44, R330). -/
structure LaneTest where
  pattern : BitVec 4
  loop : BitVec 2
  genEn : Bool
  chkEn : Bool
  acquired : Bool
deriving DecidableEq, Repr

/-- The values that the receiver's adaptation moves (R50): FFE_TAP and DFE_TAP as LANE_STATUS shows them, the front-end
peaking in dB, and the ADC gain. -/
structure Equaliser where
  taps : BitVec 304 := 0
  peaking : BitVec 5 := 0
  gain : BitVec 8 := 0
deriving DecidableEq, Repr

/-- A lane (Tables 2.3 to 2.10). The zero defaults are the reset values of Table 2.10. -/
structure Lane where
  state : LaneState := .off
  adapt : Adapt := .off
  retired : Bool := false
  sigDet : Bool := false
  amLock : Bool := false
  rxInv : Bool := false
  txInv : Bool := false
  txCtl : Bool := false
  cPre : BitVec 8 := 0
  cMain : BitVec 8 := 0
  cPost : BitVec 8 := 0
  timeout : BitVec 16 := 0
  trainTimeouts : BitVec 8 := 0
  skewUi : BitVec 32 := 0
  eq : Equaliser := {}
  sampledNs : Nat := 0         -- TB_NS up to which `eq` and the counts of a running window or test are known
  serStart : Nat := 0          -- TB_NS at which the current symbol-error window started
  serCount : Nat := 0          -- SER_WINDOW_COUNT without saturation (R59, R63)
  corr : BitVec 64 := 0        -- corrected symbols since UP, or bit errors in TEST, up to the last sample
  preset : BitVec 8 := 0
  trained : Bool := false      -- has trained since reset
  retained : Bool := false     -- the next training starts from the retained values (R49)
  scan : Option Scan := none
  test : Option LaneTest := none
  recoverNs : Option Nat := none   -- TB_NS of the entry into RECOVER
deriving DecidableEq, Repr

/-- Colours (R103). -/
inductive Colour where
  | green | yellow | red
deriving DecidableEq, Repr

/-- The account a frame's ingress cells are taken from (R182); `pool` is the shared pool for a postcard frame, which has no
ingress port-class. -/
inductive Account where
  | none | min | shared | headroom | pool
deriving DecidableEq, Repr

/-- What a queued frame is: received, sent by PTP_TX, an audit export or a postcard frame. -/
inductive FrameKind where
  | received
  | ptpTx (queue : QueueNo) (index : BitVec 16) (mode : BitVec 3) (ptpOff : Nat) (csumOff : Nat) (ref : TimeVal)
  | auditExport (chain : BitVec 2) (number : Nat)
  | postcard (slice : SliceNo)
deriving DecidableEq, Repr

/-- A frame and its descriptor (R177). -/
structure Frame where
  kind : FrameKind
  bytes : List Byte            -- destination address through FCS, with the rewrites decided so far
  inLen : Nat                  -- its length as it was received: what its cells hold (R177)
  inPort : PortNo
  attr : BitVec 32             -- PORT_ATTR of its ingress port when it started (R84)
  cls : ClassNo
  queue : ClassNo
  colour : Colour
  version : BitVec 16
  flowId : BitVec 64
  stamp : TimeVal              -- receive stamp at the ball
  stampTb : Nat                -- TB_NS of the same instant, in 2^-32 ns
  stampQual : BitVec 8
  outcome : BitVec 4           -- parse outcome (Table 4.5)
  ptpOff : Option Nat          -- offset of the PTP header where the parse reached the PTP node
  l3Off : Option Nat           -- offset of the outer L3 header
  estimate : Nat               -- R182
  headerLength : Bool          -- the estimate was read from the headers
  started : Bool               -- its egress copy had started before its last byte, where R187 let it
  cutThrough : Bool
  errored : Bool               -- found errored after its cut-through copy started (R76)
  account : Account
  cells : Nat                  -- ingress cells charged
  sent : Nat                   -- cells already granted to the fabric
  vlan : Option (BitVec 12)    -- VLAN of a multicast or flooded copy, for its egress tagging
  group : Option (BitVec 16)   -- multicast group
  pend : List Nat              -- PEND, the slices whose copy is not yet sent (R195)
  flood : Bool                 -- never sent back to its ingress port
  voqCells : Nat               -- ON_DIE + 2 x SPILL at enqueue (R338)
  occupancy : Nat              -- shared cells in use at enqueue
  spilled : Bool               -- read back from spill
  spillAt : Runs               -- its spill cells, in chain order (R188)
  gateWaited : Bool            -- already counted in GATE_WAIT for a closing (R218)
deriving DecidableEq, Repr

/-- A frame at the head of, or waiting in, an egress queue: the cells that have arrived (R214). -/
structure EqFrame where
  frame : Frame
  arrived : Nat
  inSlice : SliceNo
deriving DecidableEq, Repr

/-- A cell crossing the fabric (R185). -/
structure Cell where
  plane : BitVec 3
  inSlice : SliceNo
  outSlice : SliceNo
  seq : Nat
  port : Option PortNo         -- none: a multicast copy
  idx : Nat
  frame : Frame
deriving DecidableEq, Repr

/-- VOQ states (R179). -/
inductive VoqState where
  | onDie | spilling | flushing
deriving DecidableEq, Repr

/-- A virtual output queue (R179): on-die frames, frames in its HBM segment, cells granted and not yet
sent, and the commands waiting for its flush. -/
structure Voq where
  state : VoqState
  onDie : List Frame
  spill : List Frame
  walk : Runs                  -- spill cells of a flushed segment not yet returned to Caddy
  waiters : List (QueueNo × BitVec 16 × BitVec 32)   -- VOQ_FLUSH commands: queue, index, frames discarded
deriving DecidableEq, Repr

/-- A multicast queue MCQ[s][c] (R195 to R198). -/
structure Mcq where
  frames : List Frame
  headSince : Option Nat       -- TB_NS at which the head reached the head
  firstGrant : Option Nat      -- TB_NS of the pass's first grant, in 2^-32 ns
  granted : List Nat           -- slices that have granted the coming pass
deriving DecidableEq, Repr

/-- A gate list (R217): instants in 2^-32 ns of device time, intervals in ns. -/
structure GateList where
  base : TimeVal
  cycle : Nat
  entries : List (BitVec 8 × Nat)
  start : Nat
deriving DecidableEq, Repr

/-- The link of a port (R57, R78, R79). -/
structure LinkState where
  up : Bool
  rs : RsFault
  calibrated : Bool            -- the stamp path has been calibrated since the lanes entered UP (R244)
  cleanNs : Option Nat         -- TB_NS since when every lane is UP and the RS fault-free
  downs : List Nat             -- TB_NS of link-down events, oldest first
  holdUntil : Option Nat       -- TB_NS at which hold-down ends
  timeouts : Nat               -- consecutive time-outs of the port (R57)
  slowRaised : Bool
  trainEnd : Option Nat        -- TB_NS at which TRAIN_TIMEOUT expires
  alignEnd : Option Nat        -- TB_NS at which the 20 ms of ALIGN end
  backoffEnd : Option Nat
deriving DecidableEq, Repr

/-- Received pause of one class (R80, R82): all in TB_NS. -/
structure PauseState where
  untilNs : Option Nat         -- end of the pause time
  since : Option Nat           -- start of the continuous pause
  lastXoff : Option Nat
  storm : Bool
deriving DecidableEq, Repr

/-- Accounts of one ingress port-class (R182, R183). -/
structure Ipc where
  reg : BitVec 64              -- BUF_IPC
  minUsed : Nat
  sharedUsed : Nat
  hdrmUsed : Nat
  paused : Bool
  xoffNs : Option Nat          -- TB_NS of the last XOFF sent (R81)
deriving DecidableEq, Repr

/-- One egress class of a port: registers, fair-queueing tags and queue (R214 to R216). -/
structure EgrClass where
  reg : BitVec 32              -- EGR_CLASS
  s : BitVec 64
  f : BitVec 64
  wasSelectable : Bool
  lvl : BitVec 2               -- the LEVEL that goes with f
  queue : List EqFrame
  granted : Nat                -- cells granted and not yet arrived
  sliceTurn : Nat              -- rotation over ingress slices
deriving DecidableEq, Repr

/-- A port (R73 to R88). -/
structure Port where
  cfg : BitVec 64              -- PORT_CFG
  guard : BitVec 64            -- PORT_GUARD
  attr : BitVec 32             -- PORT_ATTR
  parse : BitVec 32            -- PARSE_PORT
  punt : BitVec 64             -- PUNT_METER
  flow : BitVec 32             -- FLOW_PORT
  egrCfg : BitVec 32           -- EGR_CFG
  sample : BitVec 64           -- SAMPLE_CFG
  egrSched : BitVec 32         -- EGR_SCHED
  ptpCfg : BitVec 32           -- PTP_PORT_CFG
  ptpDelay : BitVec 64         -- PTP_PORT_DELAY
  telem : BitVec 64            -- TELEM_PORT
  polSel : Tbl (BitVec 32)     -- POL_SEL[p][c]
  ipc : Tbl Ipc
  egr : Tbl EgrClass
  pause : Tbl PauseState
  v : Tbl (BitVec 64)          -- virtual time per level
  link : LinkState
  serWindow : BitVec 16        -- LANE_SER_CFG.WINDOW
  serThresh : BitVec 24        -- LANE_SER_CFG.THRESH_E7
  dRx : BitVec 32
  dTx : BitVec 32
  calNs : BitVec 64
  calBound : BitVec 32
  calCount : BitVec 8
  puntTok : Nat                -- in 10^-9 frame
  puntNs : Nat
  trapTok : Nat                -- in 10^-9 frame
  trapNs : Nat
  rxCount : Nat                -- sampling countdowns (R199, R339)
  txCount : Nat
  pcCount : Nat
  grantTurn : Nat              -- rotation over classes
  tx : Option EqFrame          -- the frame in transmission
  txClass : ClassNo
  txAt : Nat                   -- its transmit stamp (R245), a count of device time in 2^-32 ns
  txAtTb : Nat                 -- TB_NS of the same instant, in 2^-32 ns
  txQual : BitVec 8            -- its stamp quality
  txEqCells : Nat              -- cells in EQ[p][c] when it started
  txTrunc : Option Nat         -- it will be ended by its gate (R219), after so many bytes
  txMax : Nat                  -- MAX_FRAME when it started (R75)
  txAttr : BitVec 32           -- PORT_ATTR when it started (R84)
  txMarks : List Nat           -- slots of the port that its rewrites count (R251, R338)
  gateOper : Option GateList
  gatePend : Option GateList
deriving DecidableEq, Repr

/-- A sampling counter (R336). -/
structure Sctr where
  count : BitVec 64
  event : BitVec 16
  queue : BitVec 16
  en : Bool
  armed : Bool
  thresh : BitVec 64
deriving DecidableEq, Repr

/-- Cells of one ingress slice on their way through an egress slice's reorder stage (R185, R186). -/
structure Reorder where
  next : Nat                   -- the sequence number expected
  waiting : List Cell
  waitNs : Option Nat          -- TB_NS since when a number is missing
  lost : List Cell             -- cells lost on a failed plane whose frames are not yet discarded
  mcCells : Nat                -- cells of a multicast frame that have arrived
deriving DecidableEq, Repr

/-- A slice (chapters 07, 08, 13). -/
structure Slice where
  hdrmPool : BitVec 17         -- BUF_POOL.HDRM_POOL
  bufMc : BitVec 32            -- BUF_MC
  bufClass : Tbl (BitVec 32)   -- BUF_CLASS[s][c]
  pcCfg : BitVec 64
  pcHdr : BitVec 128
  sctr : Tbl Sctr
  minUsed : Nat
  sharedUsed : Nat
  hdrmUsed : Nat
  egrUsed : Nat                -- egress cells held or granted
  inRetired : Nat              -- ingress banks retired, empty of frames
  egRetired : Nat              -- egress banks retired, empty of frames
  inLeaving : Nat              -- ingress banks retired whose last frame has not left them (R345)
  egLeaving : Nat
  mcq : Tbl Mcq
  mcr : Tbl (List Frame)       -- residue queues, 8 x egress slice + class
  planeTurn : Nat
  seqOut : Tbl Nat             -- next sequence number toward each egress slice
  reorder : Tbl Reorder        -- by ingress slice
  pcQueue : List (BitVec 256 × Nat)   -- postcard records that wait, each with the TB_NS at which it was made
  pcSeq : BitVec 64
  abortNs : Tbl Nat            -- TB_NS of the last UCODE_ABORT per store copy (R95)
deriving DecidableEq, Repr

end Sys2Proof.Machine
end

