-- ==== Sys2Proof/Machine/PowerTypes.lean ====
section
/-! DEFINITION. State of the fault collector, the power controller and the device as a whole (chapters 01, 14, 15, 16). -/

namespace Sys2Proof.Machine

/-- An open promotion window (R347). -/
structure FWindow where
  source : BitVec 16
  kind : BitVec 10
  gen : BitVec 8
  count : Nat
  endNs : Nat
deriving DecidableEq, Repr

/-- The fault collector and the fault window (R342 to R357, Table 14.5). -/
structure FaultState where
  transit : List (BitVec 128)      -- messages sent by their units and not yet judged (R346)
  log : Tbl (BitVec 128)           -- FW_LOG[0 to 895]
  logHead : BitVec 16
  logWraps : BitVec 16
  safeCause : BitVec 128
  lockCause : BitVec 128
  safeNs : BitVec 64
  lockNs : BitVec 64
  counts : Tbl (BitVec 64)         -- FAULTS[0 to 4]
  lost : BitVec 64
  promotions : BitVec 64
  escalations : BitVec 64
  windowEvict : BitVec 64
  unack : List (BitVec 128)        -- FW_UNACK, oldest first
  implicit : List (BitVec 128)     -- NOTE and CORRECTED messages not yet acknowledged (R348)
  waiting : List (BitVec 128)      -- messages waiting for room on the admin event ring (R355)
  posted : List (BitVec 128)       -- messages whose FAULT record the host has not returned, oldest first
  windows : List FWindow
  settings : Tbl (BitVec 24)       -- FAULT_WINDOW_SET: WINDOW in [23:8], THRESH in [7:0], by kind
  evictNs : Option Nat             -- TB_NS of the last FC_WINDOW_FULL
  d2dLost : Tbl Nat                -- frames lost on each die-to-die link (R21): 4 x quadrant + adapter, or 16 + chiplet
  latch : Option (BitVec 640)      -- FW_STATUS and the nine counters as latched (R356)
deriving DecidableEq, Repr

/-- Domain states (Table 15.3) of a domain present on the member. -/
inductive DomState where
  | off | waking | on | holdoff | dropping
deriving DecidableEq, Repr

/-- A vote: its client kind (Table 15.2) and client handle. -/
structure Vote where
  kind : BitVec 4
  client : Handle
deriving DecidableEq, Repr

/-- A power domain (R358 to R367). -/
structure Dom where
  state : DomState
  votes : List Vote
  wakeNs : BitVec 64
  readyNs : BitVec 64
  wakeClient : Handle
  wakeKind : BitVec 4
  wakes : BitVec 16
  failedBlocks : BitVec 8
  failedMask : BitVec 32
  holdoffEnd : Nat               -- TB_NS at which HOLDOFF ends
  cause : Option (Vote × Nat)    -- the vote that causes the next wake and its TB_NS
  canary : BitVec 32             -- the canary value of the last drop (R364)
deriving DecidableEq, Repr

/-- A supply monitor (Table 15.7). -/
structure Rail where
  warnPm : BitVec 8
  inDip : Bool
  minPm : BitVec 10
  dips : BitVec 16
  duration : BitVec 25
deriving DecidableEq, Repr

/-- The power controller and the supply monitors. -/
structure PowerState where
  doms : Tbl Dom
  holdoffUs : BitVec 16
  rails : Tbl Rail
  dipEndNs : Option Nat          -- TB_NS at the end of the last dip (SUPPLY_EVENT lasts 1 µs more, R368)
  causeValid : Bool              -- PWR_RESET_CAUSE.VALID
  causeRail : BitVec 3
deriving DecidableEq, Repr

/-- Fuses (R289, R357, R378). -/
structure Fuses where
  member : BitVec 4
  serial : BitVec 64
  stepping : BitVec 8
  factoryIntact : Bool
  svn : Nat
deriving DecidableEq, Repr

/-- The device: mode, identity, boot and pins. -/
structure DevState where
  mode : Mode
  prevMode : Mode
  domainId : BitVec 16
  deviceId : BitVec 12
  domSet : Bool
  bootStep : BitVec 4
  bootError : BitVec 8
  bootSlot : Bool
  bootSource : Bool
  factory : Bool
  bootSrcStrap : Bool
  resetSrc : BitVec 4
  stRetired : BitVec 8
  stFailed : BitVec 8
  resetN : Bool
  perstN : Bool
  railsGood : Bool
  refclk : BitVec 9              -- reference present and in tolerance: chiplets 0 to 7, hub 8
  pcieUp : Bool
  thermtrip : Bool
  tapIr : BitVec 8
  bundle : Option (List Byte)    -- the hub's bundle memory
  bundleVer : BitVec 32
  bundleFromPcie : Bool
  bundleNs : BitVec 64
  loading : Option Bool          -- the flash slot a load is in progress from (false: A)
  flashA : List Byte
  flashB : List Byte
  retired : List (BitVec 16 × Nat)   -- units retired by self-test or promotion: SOURCE and index
  hostKey : BitVec 128
  flowKey : BitVec 128
  flashing : Option (Bool × List Byte)   -- FLASH_UPDATE running: its slot and image
  nextCursor : Nat               -- number of the next cursor that NEXT returns
  cursorEpoch : Nat              -- number of the first cursor since the last warm reset (R135)
deriving DecidableEq, Repr

end Sys2Proof.Machine
end

