-- ==== Sys2Proof/Machine/TableTypes.lean ====
section
/-! DEFINITION. State of the tables, the rule versions and Infuser (chapters 04, 05, 06, 08). -/

namespace Sys2Proof.Machine

/-- A POLICER entry with its buckets, in 2^-16 byte, and TB_NS of its last use (R205, R206). -/
structure Policer where
  entry : BitVec 256
  tc : Nat
  tep : Nat
  lastNs : Nat
deriving DecidableEq, Repr

/-- A SHAPER entry with its tokens, in 1/8,000,000 byte, and TB_NS of their last refill (R212). -/
structure Shaper where
  entry : BitVec 128
  tokens : Int
  lastNs : Nat
deriving DecidableEq, Repr

/-- An ACL entry: ACL_VALUE, ACL_MASK and ACL_ACTION of one index of one slice (R120, Table 5.10). -/
structure AclEntry where
  value : BitVec 512
  mask : BitVec 512
  action : BitVec 16
  vis0 : Bool
  vis1 : Bool
deriving DecidableEq, Repr

/-- A HOST slot: its entry with HIT 0 and PARITY 0, and HIT of each quadrant's copy (R129, R137). -/
structure HostSlot where
  entry : BitVec 128
  hit : BitVec 4
deriving DecidableEq, Repr

/-- A flow record's slot: the record and its directory entry (R148, R150). -/
structure FlowSlot where
  record : BitVec 1024
  fp : BitVec 8
  age : BitVec 6
  reachable : Bool             -- false: the directory entry failed parity (R174)
deriving DecidableEq, Repr

/-- A route: RES_KIND in [17:16] and RES_INDEX in [15:0] of its result, and its location index. -/
structure LpmRoute where
  result : BitVec 18
  loc : BitVec 26
deriving DecidableEq, Repr

/-- What a cursor that NEXT has returned stands for: its table, the next location, and the relocations made in HOST when its
iteration began (R135). -/
structure Cursor where
  tab : Nat
  loc : Nat
  relocs : Nat
deriving DecidableEq, Repr

/-- Every table of Table 5.1. An unlisted index holds the table's reset entry. -/
structure TableState where
  portVlan : Tbl (BitVec 32)
  vlan : Tbl (BitVec 128)
  nexthop : Tbl (BitVec 128)
  nhgroup : Tbl (BitVec 512)
  mcgroup : Tbl (BitVec 32)
  mcEgress : Tbl (BitVec 64)   -- 65,536 x slice + group
  policer : Tbl Policer
  shaper : Tbl Shaper
  acl : Tbl AclEntry           -- 16,384 x slice + entry
  host : Tbl HostSlot          -- by location index; the stash from 2,097,152
  lpm4 : Tbl LpmRoute          -- by 256 x address + LEN
  lpm6 : Tbl LpmRoute
  profiles : Tbl (BitVec 512)  -- flow profiles (Table 6.6)
  flows : Tbl FlowSlot         -- by location index
  snat : List (Nat × BitVec 128 × BitVec 16)   -- SNAT ports allocated: profile, address, port
  relocs : Nat                 -- relocations made in HOST
  cursors : Tbl Cursor         -- cursors returned, by number
  moveMark : Nat               -- device time up to which MOVE_WINDOW boundaries have passed (R139)
  ageMark : Nat                -- TB_NS up to which age sweeps have passed (R140)
  sweepBase : Nat              -- device time from which the partitions sweep (R169)
  sweepMark : Tbl Nat          -- device time of a partition's last sweep
  learnCfg : BitVec 64
  flowCfg : BitVec 64
deriving DecidableEq, Repr

/-- State of a version slot (R110). -/
inductive SlotState where
  | free | active | draining
deriving DecidableEq, Repr

/-- One extract of a key profile: PRV byte offset and length (R101). -/
structure Extract where
  off : Nat
  len : Nat
deriving DecidableEq, Repr

/-- A version slot: number, generation, key profiles, user nodes and the bank of each store. -/
structure VSlot where
  state : SlotState
  number : BitVec 16
  gen : BitVec 8
  profiles : Tbl (List Extract)
  nodes : Tbl (BitVec 128)     -- Table 4.7, by node code
  banks : BitVec 10            -- bit i: bank of store i (STORE_MASK numbering of Table 12.6)
deriving DecidableEq, Repr

/-- A staged change of one ACL entry (R113, R127). -/
structure StagedRule where
  value : Option (BitVec 512)
  mask : Option (BitVec 512)
  action : Option (BitVec 16)
  delete : Bool
deriving DecidableEq, Repr

/-- The staging set (R113, R114). A staged node is `none` when it is removed. -/
structure Stage where
  rules : Tbl StagedRule
  profiles : Tbl (List Extract)
  nodes : Tbl (Option (BitVec 128))
  loaded : BitVec 10           -- stores named by CS_STAGE_LOAD in this set
deriving DecidableEq, Repr

/-- A RULESET_COMMIT in execution (R116). -/
structure CommitJob where
  queue : QueueNo
  index : BitVec 16
  waiting : Bool
  limitNs : Nat                -- TB_NS at which WAIT_LIMIT is reached
  switchAt : Option TimeVal    -- T, once chosen
  votes : List Nat             -- slices holding COMMIT votes
deriving DecidableEq, Repr

/-- The rule versions. -/
structure VerState where
  slot0 : VSlot
  slot1 : VSlot
  nextVer : BitVec 16
  verGen : BitVec 8
  stage : Option Stage
  commit : Option CommitJob
  inFlight : Tbl Nat           -- 2 x slice + slot: headers in flight (R117)
  drainNs : Nat                -- TB_NS of the last switch
  slowRaised : Bool
  stores : Tbl (List Byte)     -- 2 x store + bank: the image in that bank of every copy of the store
deriving DecidableEq, Repr

/-- Where a frame's lookup sends it (R121 to R124). -/
inductive Dest where
  | port (p : PortNo) (vlan : BitVec 12)      -- bridged
  | nexthop (n : BitVec 16)
  | group (g : BitVec 12)                     -- an NHGROUP whose member is not chosen yet
deriving DecidableEq, Repr

/-- What a header that hit a twin carries to its primary (R166): both locations, the original endpoint, the side of
the header that it stands in for, and whether the header comes from the originator. -/
structure Via where
  primary : Nat
  twin : Nat
  isSrc : Bool
  addr : BitVec 128
  port : BitVec 16
  fromOrig : Bool
deriving DecidableEq, Repr

/-- A flow-tracked header on its way through Infuser: its frame, the bytes as they were received, its destination,
source endpoint first, and the version slot it was admitted under. -/
structure FlowHdr where
  frame : Frame
  orig : List Byte
  via : Option Via
  dest : Dest
  slot : Bool
  v6 : Bool
  proto : BitVec 8
  scope : BitVec 12
  srcAddr : BitVec 128
  dstAddr : BitVec 128
  srcPort : BitVec 16
  dstPort : BitVec 16
  tcpFlags : BitVec 8
  l4Off : Option Nat
  h : BitVec 64                -- the member hash h of R123
  upset : Upset                -- the table entry failing parity that its routine reads, while the routine runs
  ctx : BitVec 576             -- its micro-state in a miss-pending entry (Table 4.3); 0 while it is not parked
deriving DecidableEq, Repr

/-- A record fetch outstanding, with the headers parked behind it, oldest first (R154, R155). -/
structure Fetch where
  loc : Nat
  issueNs : Nat
  waiting : Bool               -- a fill that waits for a way of its set to unpin (R151)
  install : Bool               -- that fill is a new flow's, which would be placed at `loc`
  parked : List FlowHdr
deriving DecidableEq, Repr

/-- An Infuser partition (R143): its input queue, the locations cached (most recently used first) and its
outstanding fetches. -/
structure Partition where
  input : List FlowHdr
  cache : List Nat
  fetches : List Fetch
deriving DecidableEq, Repr

/-- A learn request on its way to its owner (R137). -/
structure LearnReq where
  vlan : BitVec 12
  mac : BitVec 48
  port : PortNo
deriving DecidableEq, Repr

/-- A quadrant: spill controller, learn engine, Infuser and fabric planes. -/
structure Quad where
  spillReady : Bool
  spillBuilding : Bool
  ring : Runs                  -- the free ring in HBM, its head first (R191)
  caddy : Runs                 -- the pointers that Caddy holds, the next one to be used first
  lost : Nat
  spillRetired : List Nat      -- spill cells that are retired
  writeTok : Nat               -- in 1/1024 cell
  readTok : Nat
  tokNs : Nat
  planesDown : BitVec 6
  learnQ : List LearnReq
  stashHigh : Bool
  flowSeq : BitVec 50
  installTok : Nat             -- in 1/16 install
  installNs : Nat
  pendPeak : Nat
  parts : Tbl Partition        -- by local slice
deriving DecidableEq, Repr

end Sys2Proof.Machine
end

