-- ==== Sys2Proof/Machine/TimeTypes.lean ====
section
/-! DEFINITION. State of the time base (chapter 09). -/

namespace Sys2Proof.Machine

/-- Time-base qualities (Table 9.4). -/
inductive Quality where
  | invalid | freerun | locked | traceable | holdover
deriving DecidableEq, Repr

/-- A register write that waits for the tick at which it takes effect (R227). -/
inductive TimeWrite where
  | inc (v : BitVec 64)
  | adj (v : BitVec 64)
  | setTime (sec : BitVec 64) (ns : BitVec 64)
  | ctl (v : BitVec 64)
deriving DecidableEq, Repr

/-- The three PPS_IN registers as latched (R237). -/
structure PpsLatch where
  stamp : TimeVal
  offset : BitVec 64
  count : BitVec 32
deriving DecidableEq, Repr

/-- What a stamp is taken from: both counts, the quality, a supply dip in progress and the end of the last, and how far each
slice's copy stands from the hub's device time and TB (R240). -/
structure TimeView where
  dev : Nat
  tb : Nat
  quality : Quality
  dip : Bool
  dipEndNs : Option Nat
  skews : Tbl (Int × Int)
deriving DecidableEq, Repr

/-- A change in what stamps are taken from: the view just before it, and for a step `true`. -/
structure TimeMark where
  before : TimeView
  step : Bool
deriving DecidableEq, Repr

/-- The time base. Device time and TB are counted in units of 2^-32 ns (R224). -/
structure TimeState where
  dev : Nat                    -- device time
  tb : Nat                     -- TB_NS with its fraction
  inc : BitVec 64              -- TIME_INC
  ctl : BitVec 64              -- TIME_CTL
  set : Bool
  steps : BitVec 16
  refLock : Bool
  everLocked : Bool            -- lock has been held since the first TIME_SET
  quality : Quality
  holdValid : Bool             -- HOLDOVER entered from TRACEABLE and HOLD_VALID not yet expired
  holdStart : Nat              -- TB_NS of the entry into HOLDOVER
  sliceOk : BitVec 16
  skews : Tbl (Int × Int)      -- a slice copy's device time and TB less the hub's (R240); an unlisted slice agrees
  marks : List TimeMark        -- changes that stamps may still look behind, the newest first
  slips : List (Nat × Nat)     -- slips corrected: the slice and TB
  writes : List TimeWrite
  nowLatch : TimeVal
  tbLatch : BitVec 64
  pps : PpsLatch
  ppsHeld : Option PpsLatch
  ppsAccept : Option Nat       -- TB_NS of the last accepted edge
  ppsCounted : Option Nat      -- TB_NS of the last counted edge
  ppsSeen : Bool
  ppsTol : Bool
  ppsOut : Bool
  ppsOutNs : Nat               -- TB_NS of the last rise
  crossed : Bool               -- a tick carried device time across a second boundary
  ticks : Nat                  -- ticks since the last checkpoint
deriving DecidableEq, Repr

end Sys2Proof.Machine
end

