-- ==== Sys2Proof/Machine/State.lean ====
section
/-! DEFINITION. The state of the block, its reasons to stop, and the state right after power is applied. -/

namespace Sys2Proof.Machine

/-- Reasons for the model itself to stop. The device's own faults are messages to its collector and part
of `State`; none of them stops the model. -/
inductive Fault where
  /-- Raised by an event row that names a unit no member of the family has (a power domain above 47, a fabric
  plane above 5). Safe: the manual gives such a unit no behaviour. -/
  | noSuchUnit
deriving DecidableEq, Repr

/-- Reasons to refuse a command. -/
inductive Refusal where
  /-- Raised by `exec` for a command of the table that has no meaning yet. Safe. -/
  | notModelled (mnemonic : String)
deriving DecidableEq, Repr

/-- The block's state. `pending`, `draws` and `out` are the model's own; everything else is the manual's. -/
structure State where
  /-- Commands waiting, first in first out. -/
  pending : List Instr
  /-- How many free values have been drawn. -/
  draws : Nat
  /-- What has left the device, oldest first. -/
  out : List Out
  fuses : Fuses
  dev : DevState
  time : TimeState
  faults : FaultState
  power : PowerState
  host : HostState
  /-- BAR2 counters, by 512 x page + slot (R332). -/
  ctr : Tbl (BitVec 64)
  strainers : Tbl Strainer
  /-- Lanes by global number; an unlisted lane is not bound to a port. -/
  lanes : Tbl Lane
  ports : Tbl Port
  portGen : Tbl (BitVec 8)
  slices : Tbl Slice
  /-- VOQs by device index (R11); an unlisted VOQ is ON_DIE and empty. -/
  voqs : Tbl Voq
  /-- Cells on their way through the fabric, oldest first. -/
  fabric : List Cell
  quads : Tbl Quad
  tables : TableState
  vers : VerState
  audit : AuditState
  ioam : BitVec 192
  synce : Tbl (BitVec 32)
deriving DecidableEq, Repr

/-- The Table Access Window after reset (Tables 5.7, 5.8). -/
def Taw.reset : Taw := { cmd := 0, data := [], status := 0, overrun := false }

/-- ADMIN_CTL after reset: POLL_NS 1,000, SQ_EXP 6, CQ_EXP 6, EQ_EXP 8 (Table 11.8). -/
def adminCtlReset : BitVec 64 := 0x7D063200000

/-- The host interface after power-on reset. -/
def HostState.reset : HostState :=
  { adminSq := 0, adminCq := 0, adminEq := 0, adminCtl := adminCtlReset, adminRunning := false
    adminHalted := false, queues := [], cqs := [], queueGen := [], cqGen := [], retiring := [], orphans := [], prot := []
    pageUser := [], msixTable := [], msixMask := 0, msixPend := 0, latch := [], taw := Taw.reset }

/-- A Strainer after reset (Table 11.18). -/
def Strainer.reset : Strainer :=
  { areaBase := 0, nringBase := 0, cfg := 0x5140000000FA0000, fillBank := false, fill := [], drain := []
    inProgress := none, areaOff := 0, areaUsed := [], room := 0, reads := .live, index := 0, lap := 0, arrival := 0, dropped := 0
    irq := { vector := 0, enabled := false, holdNs := 1000, untilNs := 0, owed := false } }

/-- The fault collector after power-on reset (Table 14.5). -/
def FaultState.reset : FaultState :=
  { transit := [], log := [], logHead := 0, logWraps := 0, safeCause := 0, lockCause := 0, safeNs := 0, lockNs := 0
    counts := [], lost := 0, promotions := 0, escalations := 0, windowEvict := 0, unack := [], implicit := []
    waiting := [], posted := [], windows := [], settings := [], evictNs := none, d2dLost := [], latch := none }

/-- A domain that is off and has no record of a wake (R358, Table 15.6). -/
def Dom.reset : Dom :=
  { state := .off, votes := [], wakeNs := 0, readyNs := 0, wakeClient := 0, wakeKind := 0, wakes := 0
    failedBlocks := 0, failedMask := 0, holdoffEnd := 0, cause := none, canary := 0 }

/-- A supply monitor after reset: warning level 50 per mille (Table 15.7). -/
def Rail.reset : Rail := { warnPm := 0x32, inDip := false, minPm := 0, dips := 0, duration := 0 }

/-- The power controller in RESET: domain 0 is on, every other domain off (R359, R370). -/
def PowerState.reset : PowerState :=
  { doms := [(0, { Dom.reset with state := .on })], holdoffUs := 0x03E8, rails := [], dipEndNs := none
    causeValid := false, causeRail := 0 }

/-- The fuses of the device modelled (assumption 3). -/
def Fuses.reset : Fuses := { member := 1, serial := 0, stepping := 0x10, factoryIntact := false, svn := 0 }

/-- The device in RESET (R32, R35, Table 16.7). -/
def DevState.reset : DevState :=
  { mode := .reset, prevMode := .reset, domainId := 0, deviceId := 0, domSet := false, bootStep := 0, bootError := 0
    bootSlot := false, bootSource := false, factory := false, bootSrcStrap := false, resetSrc := 0, stRetired := 0
    stFailed := 0, resetN := false, perstN := false, railsGood := false, refclk := 0x1FF, pcieUp := false
    thermtrip := false, tapIr := 0x01, bundle := none, bundleVer := 0, bundleFromPcie := false, bundleNs := 0
    loading := none, flashA := [], flashB := [], flashing := none, retired := [], hostKey := 0, flowKey := 0, nextCursor := 1, cursorEpoch := 1 }

/-- PPS_IN registers after reset (Table 9.1). -/
def PpsLatch.reset : PpsLatch := { stamp := 0, offset := 0, count := 0 }

/-- The time base after power-on reset (R256, Tables 9.1 to 9.3). -/
def TimeState.reset : TimeState :=
  { dev := 0, tb := 0, inc := 0x140000000, ctl := 0x3200232004, set := false, steps := 0, refLock := false
    everLocked := false, quality := .invalid, holdValid := false, holdStart := 0, sliceOk := 0,
    skews := [], marks := [], slips := [], writes := [], nowLatch := 0, tbLatch := 0
    pps := PpsLatch.reset, ppsHeld := none, ppsAccept := none, ppsCounted := none, ppsSeen := false, ppsTol := false
    ppsOut := false, ppsOutNs := 0, crossed := false, ticks := 0 }

/-- BUF_CLASS after reset (Table 7.5). -/
def bufClassReset : BitVec 32 := 0x04310800

/-- A slice after reset (Tables 7.3, 7.5, 7.8, 13.11). -/
def Slice.reset : Slice :=
  { hdrmPool := 0, bufMc := 0x7D0, bufClass := [], pcCfg := 0, pcHdr := 0x88B60000, sctr := [], minUsed := 0, sharedUsed := 0
    hdrmUsed := 0, egrUsed := 0, inRetired := 0, egRetired := 0, inLeaving := 0, egLeaving := 0, mcq := [], mcr := [], planeTurn := 0, seqOut := []
    reorder := [], pcQueue := [], pcSeq := 0, abortNs := [] }

/-- A VOQ that is ON_DIE and empty. -/
def Voq.reset : Voq := { state := .onDie, onDie := [], spill := [], walk := [], waiters := [] }

/-- A quadrant after power-on reset: spill not built, FLOW_IDSEQ 1 (Table 7.7, R149). -/
def Quad.reset : Quad :=
  { spillReady := false, spillBuilding := false, ring := [], caddy := [], lost := 0, spillRetired := []
    writeTok := 0, readTok := 0, tokNs := 0, planesDown := 0, learnQ := [], stashHigh := false, flowSeq := 1
    installTok := 0, installNs := 0, pendPeak := 0, parts := [] }

/-- Every table at its reset entries (R142, R174; Tables 5.13, 6.10). -/
def TableState.reset : TableState :=
  { portVlan := [], vlan := [], nexthop := [], nhgroup := [], mcgroup := [], mcEgress := [], policer := [], shaper := []
    acl := [], host := [], lpm4 := [], lpm6 := [], profiles := [], flows := [], snat := [], relocs := 0
    cursors := [], moveMark := 0, ageMark := 0, sweepBase := 0, sweepMark := []
    learnCfg := 0x12C3E84F400000, flowCfg := 0 }

/-- A FREE version slot. -/
def VSlot.reset : VSlot := { state := .free, number := 0, gen := 1, profiles := [], nodes := [], banks := 0 }

/-- The rule versions after power-on reset (R111, Table 4.15). -/
def VerState.reset : VerState :=
  { slot0 := VSlot.reset, slot1 := VSlot.reset, nextVer := 1, verGen := 1, stage := none, commit := none, inFlight := []
    drainNs := 0, slowRaised := false, stores := [] }

/-- A chain with no epoch and an empty spool. -/
def Chain.reset : Chain :=
  { seq := 0, hash := 0, spool := [], resHold := [], resSys := [], full := false, gap := none, inLevel := 0
    prevCp := 0, sinceCp := 0, cpNs := 0, missing := 0, skipped := 0, reserveRaised := false, ppsMax := 0, ppsLast := 0
    ppsEdges := 0, sawAdapt := false, sawSupply := false, sawSlip := false, sawStep := false, qualSeen := 0, lastCp := 0
    lastCpTime := 0, posted := [], buf := none, exports := 0 }

/-- The Time Audit Unit after power-on reset (Tables 10.7, 10.8). -/
def AuditState.reset : AuditState :=
  { nonce := none, epochs := 0, awaiting := some 1, signFailed := false, inNs := 0, chains := [], cfg := 0x3F80000000000000
    expHdr := 0x88B50000 }

/-- The state right after power-on reset: mode RESET, every register at its reset value, no command waiting. -/
def State.reset : State :=
  { pending := [], draws := 0, out := [], fuses := Fuses.reset, dev := DevState.reset, time := TimeState.reset
    faults := FaultState.reset, power := PowerState.reset, host := HostState.reset, ctr := [], strainers := []
    lanes := [], ports := [], portGen := [], slices := [], voqs := [], fabric := [], quads := []
    tables := TableState.reset, vers := VerState.reset, audit := AuditState.reset, ioam := 0, synce := [] }

end Sys2Proof.Machine
end

