-- ==== Sys2Proof/Machine/Ops.lean ====
section
/-! DEFINITION. Operations every family shares: time, outputs, free values, units present, counters, fault messages,
interrupts, events and power votes. -/

namespace Sys2Proof.Machine

/-! ### Codes -/

/-- Mode codes (Table 1.6). -/
def modeCode : Mode → Nat
  | .reset => 0 | .boot => 1 | .configure => 2 | .run => 3 | .safe => 4 | .lockout => 5

/-- Status codes (Table 12.1). -/
def statusCode : Status → Nat
  | .ok => 0 | .busy => 1 | .stale => 2 | .denied => 3 | .unitAbsent => 4 | .noRoom => 5 | .badMode => 6
  | .versionLimit => 7 | .badHandle => 8 | .badParam => 9 | .notFound => 10 | .inUse => 11 | .linkDown => 12
  | .noStage => 13 | .badSignature => 14 | .dmaError => 15

/-- The device's mode. -/
def State.mode (s : State) : Mode := s.dev.mode

/-! ### Time -/

/-- Units of 2^-32 ns in a nanosecond, and in a second. -/
def nsUnit : Nat := 4294967296
def secUnit : Nat := 1000000000 * 4294967296

/-- TB_NS (R224). -/
def State.tbNs (s : State) : Nat := s.time.tb / nsUnit

/-- A count of 2^-32 ns as a time value (R15). -/
def timeOf (t : Nat) : TimeVal :=
  pack 128 [(127, 64, t / secUnit), (63, 32, t / nsUnit % 1000000000), (31, 16, t / 65536 % 65536)]

/-- A time value as a count of 2^-32 ns. -/
def ofTime (t : TimeVal) : Nat := fld t 127 64 * secUnit + fld t 63 32 * nsUnit + fld t 31 16 * 65536

/-- Device time now. -/
def State.now (s : State) : TimeVal := timeOf s.time.dev

/-- A TB_NS deadline has been reached; with none set it has not. -/
def State.reached (s : State) : Option Nat → Bool
  | none => false
  | some t => decide (t ≤ s.tbNs)

/-! ### What stamps are taken from (R240, R242 to R247) -/

/-- The present view. -/
def State.view (s : State) : TimeView :=
  { dev := s.time.dev, tb := s.time.tb, quality := s.time.quality, dip := s.power.rails.any (fun e => e.2.inDip)
    dipEndNs := s.power.dipEndNs, skews := s.time.skews }

/-- A change follows: what stood until now is kept. -/
def State.mark (s : State) (step : Bool) : State :=
  { s with time := { s.time with marks := { before := s.view, step := step } :: s.time.marks } }

/-- The view at an instant of TB: that before the first change after it. -/
def State.viewAt (s : State) (e : Nat) : TimeView :=
  s.time.marks.foldl (fun v m => if e < m.before.tb then m.before else v) s.view

/-- Device time in a slice's copy at an instant of TB, and TB in that copy. Both counts advance by the same TIME_INC. -/
def State.sliceDevAt (s : State) (sl e : Nat) : Nat :=
  let v := s.viewAt e
  ((v.dev : Int) - ((v.tb : Int) - e) + (Map.val v.skews sl (0, 0)).1).toNat
def State.sliceTbAt (s : State) (sl e : Nat) : Nat := ((e : Int) + (Map.val (s.viewAt e).skews sl (0, 0)).2).toNat

/-- A slice's copy now. -/
def State.sliceDev (s : State) (sl : Nat) : Nat := s.sliceDevAt sl s.time.tb
def State.sliceTb (s : State) (sl : Nat) : Nat := s.sliceTbAt sl s.time.tb

/-- Windows and sweeps count from now: no boundary that device time has jumped over is acted on (R139, R169). -/
def State.skipWindows (s : State) : State :=
  { s with tables := { s.tables with moveMark := s.time.dev, sweepBase := s.time.dev, sweepMark := [] } }

/-! ### Outputs and free values -/

/-- One more output of the device. -/
def State.emit (s : State) (o : Out) : State := { s with out := s.out ++ [o] }

/-- The next free value of `w` bits. -/
def State.free (s : State) (w : Nat) : BitVec w := Config.freeBits w s.draws

/-- One more free value has been drawn. -/
def State.drawn (s : State) : State := { s with draws := s.draws + 1 }

/-! ### Units present (R2, R358) -/

/-- Slices and quadrants present. -/
def sliceThere (s : State) (n : Nat) : Bool := decide (n < if s.fuses.member = 2 then 8 else 16)
def quadThere (s : State) (q : Nat) : Bool := decide (q < if s.fuses.member = 2 then 2 else 4)

/-- HBM stack, Infuser and spill region of a quadrant (R2). -/
def hbmThere (s : State) (q : Nat) : Bool := quadThere s q && decide (s.fuses.member ≠ 3)

/-- Chains of the Time Audit Unit (R259): one per quadrant present. -/
def chainThere (s : State) (c : Nat) : Bool := quadThere s c

/-- Power domains present (R358). -/
def domThere (s : State) (d : Nat) : Bool :=
  if d < 4 then true
  else if d < 20 then sliceThere s (d - 4)
  else if d < 36 then sliceThere s (d - 20)
  else if d < 40 then quadThere s (d - 36)
  else if d < 44 then hbmThere s (d - 40)
  else if d < 48 then hbmThere s (d - 44)
  else false

/-- Slices present, rising; quadrants present; ports' slice, local number and quadrant (R10). -/
def slicesThere (s : State) : List Nat := (List.range 16).filter (sliceThere s)
def quadsThere (s : State) : List Nat := (List.range 4).filter (quadThere s)
def chainsThere (s : State) : List Nat := (List.range 4).filter (chainThere s)
def portSlice (p : Nat) : Nat := p / 64
def portQuad (p : Nat) : Nat := p / 256

/-! ### Access to the indexed state -/

def State.port (s : State) (p : Nat) : Option Port := Map.find s.ports p
def State.setPort (s : State) (p : Nat) (v : Port) : State := { s with ports := Map.ins s.ports p v }
/-- Update of a port that exists; no change where none does. -/
def State.modPort (s : State) (p : Nat) (f : Port → Port) : State := { s with ports := Map.adjust s.ports p f }
def State.slice (s : State) (n : Nat) : Slice := Map.val s.slices n Slice.reset
def State.modSlice (s : State) (n : Nat) (f : Slice → Slice) : State :=
  { s with slices := Map.ins s.slices n (f (s.slice n)) }
def State.quad (s : State) (q : Nat) : Quad := Map.val s.quads q Quad.reset
def State.modQuad (s : State) (q : Nat) (f : Quad → Quad) : State :=
  { s with quads := Map.ins s.quads q (f (s.quad q)) }
def State.lane (s : State) (l : Nat) : Lane := Map.val s.lanes l {}
def State.modLane (s : State) (l : Nat) (f : Lane → Lane) : State :=
  { s with lanes := Map.ins s.lanes l (f (s.lane l)) }
def State.voq (s : State) (v : Nat) : Voq := Map.val s.voqs v Voq.reset
def State.modVoq (s : State) (v : Nat) (f : Voq → Voq) : State :=
  { s with voqs := Map.upd Voq.reset s.voqs v f }
def State.dom (s : State) (d : Nat) : Dom := Map.val s.power.doms d Dom.reset
def State.modDom (s : State) (d : Nat) (f : Dom → Dom) : State :=
  { s with power := { s.power with doms := Map.ins s.power.doms d (f (s.dom d)) } }
def State.strainer (s : State) (q : Nat) : Strainer := Map.val s.strainers q Strainer.reset
def State.modStrainer (s : State) (q : Nat) (f : Strainer → Strainer) : State :=
  { s with strainers := Map.ins s.strainers q (f (s.strainer q)) }
def State.chain (s : State) (c : Nat) : Chain := Map.val s.audit.chains c Chain.reset
def State.modChain (s : State) (c : Nat) (f : Chain → Chain) : State :=
  { s with audit := { s.audit with chains := Map.ins s.audit.chains c (f (s.chain c)) } }
def State.queue (s : State) (n : Nat) : Option Queue := Map.find s.host.queues n
def State.modQueue (s : State) (n : Nat) (f : Queue → Queue) : State :=
  { s with host := { s.host with queues := Map.adjust s.host.queues n f } }
def State.cq (s : State) (n : Nat) : Option CRing := Map.find s.host.cqs n
def State.modCq (s : State) (n : Nat) (f : CRing → CRing) : State :=
  { s with host := { s.host with cqs := Map.adjust s.host.cqs n f } }

/-- A dword of a wide register waits in its latch (R31, R227). -/
def State.latch (s : State) (off : Nat) (v : BitVec 32) : State := { s with host := { s.host with latch := Map.ins s.host.latch off v } }

/-- A 64-bit register written whole: its lower half, on its way, goes through the latch. -/
def State.latchLow (s : State) (off : Nat) (v : BitVec 64) : State := s.latch off (v.setWidth 32)

/-- Set or update of every listed index, in rising order. -/
def foldNats (l : List Nat) (f : State → Nat → State) (s : State) : State := l.foldl f s

/-! ### Handles (R12, R292, R317) -/

/-- A handle. -/
def mkHandle (gen : BitVec 8) (typ index : Nat) : Handle := pack 32 [(31, 24, gen.toNat), (23, 20, typ), (19, 0, index)]

/-- The device's handle (R317). -/
def devHandle : Handle := mkHandle 1 1 0

/-- The generation that follows (R14): 0xFF is followed by 0x01. -/
def nextGen (g : BitVec 8) : BitVec 8 := if g = 0xFF then 1 else g + 1

def State.portGenOf (s : State) (p : Nat) : BitVec 8 := Map.val s.portGen p 1
def State.queueGenOf (s : State) (n : Nat) : BitVec 8 := Map.val s.host.queueGen n 1
def State.cqGenOf (s : State) (n : Nat) : BitVec 8 := Map.val s.host.cqGen n 1

def portHandle (s : State) (p : Nat) : Handle := mkHandle (s.portGenOf p) 3 p
def queueHandle (s : State) (n : Nat) : Handle := mkHandle (s.queueGenOf n) 4 n
def cqHandle (s : State) (n : Nat) : Handle := mkHandle (s.cqGenOf n) 4 (65536 + n)

/-! ### Counters (R331, R332) -/

/-- A BAR2 counter. -/
def State.counter (s : State) (page slot : Nat) : BitVec 64 := Map.val s.ctr (512 * page + slot) 0

/-- A counter advanced by `n`, modulo 2^64 (R331). -/
def State.bump (s : State) (page slot n : Nat) : State :=
  { s with ctr := Map.upd 0 s.ctr (512 * page + slot) (fun v => v + BitVec.ofNat 64 n) }

/-- COUNT of every enabled sampling counter of a slice that follows one of the events advances alike (R336). -/
def followEvents (events : List Nat) (n : Nat) (sl : Slice) : Slice :=
  { sl with sctr := sl.sctr.map (fun e =>
      (e.1, if e.2.en && events.contains e.2.event.toNat then { e.2 with count := e.2.count + BitVec.ofNat 64 n } else e.2)) }

/-- A slice counter advanced (Table 13.3, Table 13.4). -/
def State.countSlice (s : State) (sl slot n : Nat) : State :=
  (s.bump (0x10 + sl) slot n).modSlice sl (followEvents [slot] n)

/-- A port counter advanced (Table 13.2, Table 13.4). -/
def State.countPort (s : State) (p slot n : Nat) : State :=
  (s.bump (0x400 + p) slot n).modSlice (portSlice p)
    (followEvents [0x4000 + 0x100 * (p % 64) + slot, 0x8000 + slot] n)

/-- A quadrant counter advanced (Table 13.3). -/
def State.countQuad (s : State) (q slot n : Nat) : State := s.bump (1 + q) slot n

/-- A counter of a queue, event ring or completion ring advanced (Table 13.1). -/
def State.countQueue (s : State) (queue slot n : Nat) : State := s.bump (0x100 + queue) slot n

/-- A VOQ counter and a policer counter advanced (Table 13.1). -/
def State.countVoq (s : State) (v k n : Nat) : State := s.bump (0x3000 + v / 64) (8 * (v % 64) + k) n
def State.countPolicer (s : State) (i k n : Nat) : State := s.bump (0x1000 + i / 64) (8 * (i % 64) + k) n

/-- The counters from slot `lo` to slot `hi` of a page at 0 (R331, R334). -/
def State.clearSlots (s : State) (page lo hi : Nat) : State :=
  { s with ctr := s.ctr.filter (fun e => e.1 / 512 ≠ page || e.1 % 512 < lo || hi < e.1 % 512) }

/-- A page at 0, and its CTR_PAGE_USER bit at 0 (R291, R334). -/
def State.clearPage (s : State) (page : Nat) : State :=
  let s1 := s.clearSlots page 0 511
  { s1 with host := { s1.host with pageUser := s1.host.pageUser.filter (· ≠ page) } }

/-- CTR_PAGE_USER bits at 0: pages whose objects are gone (R291). -/
def State.dropPages (s : State) (gone : Nat → Bool) : State :=
  { s with host := { s.host with pageUser := s.host.pageUser.filter (fun n => !gone n) } }

/-! ### Fault messages (R342) -/

/-- A message as its source sends it: TIME_LO, ADDRESS, GEN, KIND, CLASS and SOURCE (Table 14.1). -/
def faultMsg (tb source kind cls gen addr : Nat) : BitVec 128 :=
  pack 128 [(127, 96, tb), (95, 48, addr), (47, 40, gen), (39, 30, kind), (29, 27, cls), (15, 0, source)]

/-- A unit sends a message to the collector, where it arrives through FAULT_MESSAGE (R346). -/
def State.raise (s : State) (source kind cls gen addr : Nat) : State :=
  { s with faults := { s.faults with
      transit := s.faults.transit ++ [faultMsg s.tbNs source kind cls gen addr] } }

/-! ### Interrupts (chapter 11, Interrupts) -/

/-- An MSI-X message, or its pending bit while the vector is masked; none in LOCKOUT (R311). -/
def State.msix (s : State) (v : BitVec 8) : State :=
  if s.mode = .lockout then s
  else if bitAt s.host.msixMask v.toNat then
    { s with host := { s.host with msixPend := s.host.msixPend ||| (1 <<< v.toNat) } }
  else s.emit (.msix v)

/-- A record has been written to a ring: the message goes at once outside the holdoff, and is owed inside it. -/
def Irq.written (now : Nat) (i : Irq) : Irq × Bool :=
  if !i.enabled then (i, false)
  else if i.untilNs ≤ now then ({ i with untilNs := now + i.holdNs }, true)
  else ({ i with owed := true }, false)

/-- The holdoff has ended: a message owed goes now. -/
def Irq.expired (now : Nat) (i : Irq) : Irq × Bool :=
  if i.owed && decide (i.untilNs ≤ now) then ({ i with untilNs := now + i.holdNs, owed := false }, true) else (i, false)

/-- The index and lap after one more entry of a ring of 2^EXP (R295). -/
def advance (exp : BitVec 5) (index : BitVec 16) (lap : BitVec 8) : BitVec 16 × BitVec 8 :=
  if index.toNat + 1 = 2 ^ exp.toNat then (0, nextGen lap) else (index + 1, lap)

/-- The host address of a ring's entry. -/
def entryAddr (base : Addr) (index : BitVec 16) : Addr := base + BitVec.ofNat 64 (64 * index.toNat)

/-! ### Events (R303, R304) -/

/-- The entry of Table 11.13. -/
def eventEntry (e : Event) (lap : BitVec 8) : Entry :=
  pack 512 [(447, 384, e.postNs.toNat), (383, 64, e.payload.toNat), (63, 32, e.src.toNat), (31, 24, lap.toNat),
    (15, 0, e.kind.toNat)]

/-- An event written at the ring's next entry, with its interrupt. -/
def State.writeEvent (s : State) (q : Nat) (r : EvRing) (e : Event) : State :=
  let n := advance r.exp r.index r.lap
  let i := Irq.written s.tbNs r.irq
  let r' := { r with index := n.1, lap := n.2, room := r.room - 1, irq := i.1 }
  let s1 := (s.emit (.record (entryAddr r.base r.index) (eventEntry e r.lap))).modQueue q
    (fun x => { x with events := some r' })
  if i.2 then s1.msix r.irq.vector else s1

/-- The event ring of a queue, where the queue exists and has one. In LOCKOUT no event is posted (R311, R352). -/
def State.eventRing (s : State) (q : Nat) : Option EvRing :=
  match s.queue q with
  | none => none
  | some x => if s.mode = .lockout then none else x.events

/-- Entries an event may use: on the admin event ring 16 are reserved for FAULT, COMPLETION_STALL and
COMPLETION_RESUME (R303). -/
def usable (q : Nat) (reserved : Bool) (r : EvRing) : Nat := if q = 0 && !reserved then r.room - 16 else r.room

/-- Events of a kind dropped on a ring since the last one delivered (Table 11.14). -/
def droppedOf (r : EvRing) (kind : Nat) : Nat := Map.val r.dropped kind 0

/-- The drop counter of a dropped kind: LEARN, FLOW, TIME and SAMPLE at slots 8 to 11 (Table 13.1). -/
def dropSlot (kind : Nat) : Nat := 7 + kind

/-- An event of a dropped kind; its payload carries the count of events dropped before it (R303, R304). -/
def State.postDropped (s : State) (q kind : Nat) (src : Handle) (payload : Nat → BitVec 320) : State :=
  match s.eventRing q with
  | none => if q ≤ 256 then s.countQueue q (dropSlot kind) 1 else s
  | some r =>
    if usable q false r = 0 then
      (s.countQueue q (dropSlot kind) 1).modQueue q (fun x => { x with
        events := some { r with dropped := Map.ins r.dropped kind (droppedOf r kind + 1) } })
    else
      s.writeEvent q { r with dropped := Map.del r.dropped kind }
        { kind := BitVec.ofNat 16 kind, src := src, payload := payload (droppedOf r kind), postNs := BitVec.ofNat 64 s.tbNs }

/-- The ring a held event goes to: the admin event ring where the queue has none (R304). -/
def heldTarget (s : State) (q : Nat) : Nat := if (s.eventRing q).isSome then q else 0

/-- A ring's store of 64 held events has a place, or its event can be written at once (R303). -/
def State.canHold (s : State) (q : Nat) : Bool :=
  match s.eventRing (heldTarget s q) with
  | none => true
  | some r => decide (r.held.length < 64)

/-- An event of a held kind: written, or stored until room appears (R303). With no admin event ring the event is
lost with its ring. -/
def State.postHeld (s : State) (q kind : Nat) (src : Handle) (payload : BitVec 320) : State :=
  let t := heldTarget s q
  let e : Event := { kind := BitVec.ofNat 16 kind, src := src, payload := payload, postNs := BitVec.ofNat 64 s.tbNs }
  match s.eventRing t with
  | none => s
  | some r =>
    if r.held.isEmpty && decide (0 < usable t false r) then s.writeEvent t r e
    else s.modQueue t (fun x => { x with events := some { r with held := r.held ++ [e] } })

/-! ### Power votes (R361, R363) -/

/-- A domain is in service: ON, or still fully on in HOLDOFF. -/
def State.domOn (s : State) (d : Nat) : Bool := (s.dom d).state == .on || (s.dom d).state == .holdoff

/-- A domain starts to wake on account of a vote (R363, R365). -/
def State.startWake (s : State) (d : Nat) (v : Vote) (at_ : Nat) : State :=
  s.modDom d (fun m => { m with state := .waking, cause := some (v, at_) })

/-- A vote taken on a domain: an OFF domain wakes, one in HOLDOFF returns to ON, one that is DROPPING wakes after
its drop with this vote as its source (R361, R363). Each command holds a COMMAND vote of its own; every other client
holds one vote. -/
def State.takeVote1 (s : State) (d : Nat) (v : Vote) : State :=
  if !domThere s d || (v.kind ≠ 4 && (s.dom d).votes.contains v) then s
  else
    let s1 := s.modDom d (fun m => { m with votes := m.votes ++ [v] })
    match (s.dom d).state with
    | .off => s1.startWake d v s.tbNs
    | .holdoff => s1.modDom d (fun m => { m with state := .on })
    | .dropping => s1.modDom d (fun m => { m with cause := (m.cause).orElse (fun _ => some (v, s.tbNs)) })
    | .waking => s1
    | .on => s1

/-- The PARENT vote that Infuser q holds on HBM q while it wakes or is on (Table 15.2). -/
def parentVote : Vote := { kind := 7, client := devHandle }

/-- A vote taken, with the PARENT vote of an Infuser domain that wakes or is on. -/
def State.takeVote (s : State) (d : Nat) (v : Vote) : State :=
  let s1 := s.takeVote1 d v
  if 44 ≤ d && d < 48 && ((s1.dom d).state == .waking || (s1.dom d).state == .on) then s1.takeVote1 (d - 4) parentVote else s1

/-- HOLDOFF starts on an ON domain without votes; in SAFE and LOCKOUT no domain enters it (R363, R370). -/
def State.settle (s : State) (d : Nat) : State :=
  let m := s.dom d
  if m.state == .on && m.votes.isEmpty && 3 ≤ d && s.mode ≠ .safe && s.mode ≠ .lockout && s.mode ≠ .reset then
    s.modDom d (fun m => { m with state := .holdoff, holdoffEnd := s.tbNs + 1000 * s.power.holdoffUs.toNat })
  else s

/-- A vote withdrawn. -/
def State.dropVote (s : State) (d : Nat) (v : Vote) : State :=
  if (s.dom d).votes.contains v then
    (s.modDom d (fun m => { m with votes := m.votes.erase v })).settle d
  else s

/-- The BUFFER vote of a slice: held while any of its cells is in use (Table 15.2). -/
def bufferVote (n : Nat) : Vote := { kind := 2, client := mkHandle 1 2 n }

/-! ### Mode -/

/-- The mode after a transition, with PREV_MODE. -/
def State.setMode (s : State) (m : Mode) : State := { s with dev := { s.dev with prevMode := s.dev.mode, mode := m } }

end Sys2Proof.Machine
end

