-- ==== Sys2Proof/Machine/Catalogue.lean ====
section
/-! DEFINITION. The command catalogue (Tables 12.2 to 12.11): opcode, lengths, class, executor, modes, the parameter bits
that are assigned, and the handles among them. -/

namespace Sys2Proof.Machine

/-- Objects a handle parameter can name. -/
inductive HKind where
  | port | slice | sliceOrAll | queue | cq | voq | gate | sctr | dom
deriving DecidableEq, Repr

/-- One row of the catalogue. `assigned` lists the assigned parameter bits as `(hi, lo)`; `handles` the handle
parameters by their low bit. `ownQueue`: accepted on queue 0 only (R294). `fenced`: acts as fenced (R300).
`factoryOnly`: BOOT in factory test only (R329). -/
structure CmdRow where
  opcode : Nat
  plen : Nat
  rlen : Nat
  change : Bool
  hw : Bool
  modes : List Mode
  assigned : List (Nat × Nat) := []
  handles : List (Nat × HKind) := []
  ownQueue : Bool := false
  fenced : Bool := false
  factoryOnly : Bool := false
deriving DecidableEq, Repr

namespace Cat

def cr : List Mode := [.configure, .run]
def crs : List Mode := [.configure, .run, .safe]
def bcrs : List Mode := [.boot, .configure, .run, .safe]

def nop : CmdRow := { opcode := 0x0000, plen := 0, rlen := 0, change := false, hw := true, modes := bcrs }
def modeSet : CmdRow :=
  { opcode := 0x0001, plen := 8, rlen := 4, change := true, hw := false, modes := cr, assigned := [(2, 0)] }
def queueCreate : CmdRow :=
  { opcode := 0x0010, plen := 32, rlen := 4, change := true, hw := false, modes := cr, assigned := [(255, 45)]
    handles := [(96, .cq)], ownQueue := true }
def queueDestroy : CmdRow :=
  { opcode := 0x0011, plen := 4, rlen := 0, change := true, hw := false, modes := cr, assigned := [(31, 0)]
    handles := [(0, .queue)], ownQueue := true }
def cqCreate : CmdRow :=
  { opcode := 0x0012, plen := 16, rlen := 4, change := true, hw := false, modes := cr, assigned := [(127, 4)]
    ownQueue := true }
def cqDestroy : CmdRow :=
  { opcode := 0x0013, plen := 4, rlen := 0, change := true, hw := false, modes := cr, assigned := [(31, 0)]
    handles := [(0, .cq)], ownQueue := true }
def protSet : CmdRow :=
  { opcode := 0x0014, plen := 8, rlen := 0, change := true, hw := false, modes := cr, assigned := [(33, 0)]
    ownQueue := true }
def queueStatusGet : CmdRow :=
  { opcode := 0x0015, plen := 4, rlen := 16, change := false, hw := false, modes := crs, assigned := [(31, 0)]
    handles := [(0, .queue)] }

def portCreate : CmdRow :=
  { opcode := 0x0100, plen := 8, rlen := 4, change := true, hw := false, modes := cr
    assigned := [(37, 0), (43, 40)], handles := [(0, .slice)] }
def portDestroy : CmdRow :=
  { opcode := 0x0101, plen := 4, rlen := 0, change := true, hw := false, modes := cr, assigned := [(31, 0)]
    handles := [(0, .port)] }
def portStatusGet : CmdRow :=
  { opcode := 0x0102, plen := 4, rlen := 8, change := false, hw := false, modes := crs, assigned := [(31, 0)]
    handles := [(0, .port)] }
def portAttrSet : CmdRow :=
  { opcode := 0x0103, plen := 8, rlen := 0, change := true, hw := false, modes := cr
    assigned := [(63, 50), (41, 0)], handles := [(0, .port)] }
def portHoldClear : CmdRow :=
  { opcode := 0x0104, plen := 4, rlen := 0, change := true, hw := false, modes := cr, assigned := [(31, 0)]
    handles := [(0, .port)] }
def laneStatusGet : CmdRow :=
  { opcode := 0x0140, plen := 16, rlen := 0, change := false, hw := false, modes := crs, assigned := [(98, 0)]
    handles := [(64, .port)] }
def laneCfgSet : CmdRow :=
  { opcode := 0x0141, plen := 16, rlen := 0, change := true, hw := false, modes := cr
    assigned := [(127, 96), (90, 88), (83, 81), (63, 40), (31, 16)], handles := [(96, .port)] }
def laneCfgGet : CmdRow :=
  { opcode := 0x0142, plen := 8, rlen := 16, change := false, hw := false, modes := crs, assigned := [(34, 0)]
    handles := [(0, .port)] }
def laneAdaptCtl : CmdRow :=
  { opcode := 0x0143, plen := 8, rlen := 0, change := true, hw := false, modes := cr
    assigned := [(34, 0), (41, 40)], handles := [(0, .port)] }
def laneRetireClear : CmdRow :=
  { opcode := 0x0144, plen := 8, rlen := 0, change := true, hw := false, modes := cr, assigned := [(34, 0)]
    handles := [(0, .port)] }
def laneSerCfg : CmdRow :=
  { opcode := 0x0145, plen := 12, rlen := 0, change := true, hw := false, modes := cr
    assigned := [(45, 0), (87, 64)], handles := [(0, .port)] }

def hostAdd : CmdRow :=
  { opcode := 0x0200, plen := 32, rlen := 4, change := true, hw := true, modes := cr, assigned := [(255, 0)] }
def hostDelete : CmdRow :=
  { opcode := 0x0201, plen := 24, rlen := 0, change := true, hw := true, modes := cr, assigned := [(191, 0)] }
def search : CmdRow :=
  { opcode := 0x0202, plen := 48, rlen := 36, change := false, hw := true, modes := crs
    assigned := [(309, 0), (317, 314), (383, 318)] }
def next : CmdRow :=
  { opcode := 0x0203, plen := 24, rlen := 16, change := false, hw := true, modes := crs, assigned := [(146, 0)] }
def flushByPort : CmdRow :=
  { opcode := 0x0204, plen := 8, rlen := 4, change := true, hw := false, modes := cr
    assigned := [(44, 0), (55, 48)], handles := [(0, .port)] }
def lpmAdd : CmdRow :=
  { opcode := 0x0205, plen := 24, rlen := 0, change := true, hw := false, modes := cr
    assigned := [(153, 0), (167, 160)] }
def lpmDelete : CmdRow := { lpmAdd with opcode := 0x0206 }
def tableInfo : CmdRow :=
  { opcode := 0x0207, plen := 8, rlen := 12, change := false, hw := false, modes := crs, assigned := [(11, 0)] }

def rulesetOpen : CmdRow := { opcode := 0x0300, plen := 0, rlen := 4, change := true, hw := false, modes := cr }
def rulesetCommit : CmdRow :=
  { opcode := 0x0301, plen := 8, rlen := 20, change := true, hw := false, modes := cr, assigned := [(32, 0)]
    fenced := true }
def rulesetAbort : CmdRow :=
  { opcode := 0x0302, plen := 0, rlen := 0, change := true, hw := false, modes := cr, fenced := true }
def versionStatusGet : CmdRow :=
  { opcode := 0x0303, plen := 0, rlen := 16, change := false, hw := false, modes := crs }
def keyProfileSet : CmdRow :=
  { opcode := 0x0304, plen := 24, rlen := 0, change := true, hw := false, modes := cr
    assigned := [(8, 0), (191, 16)] }
def parseNodeSet : CmdRow :=
  { opcode := 0x0305, plen := 16, rlen := 0, change := true, hw := false, modes := cr
    assigned := [(127, 119), (111, 53), (31, 21)] }
def csStageLoad : CmdRow :=
  { opcode := 0x0F20, plen := 24, rlen := 0, change := true, hw := false, modes := cr, assigned := [(105, 0)] }

def flowProfileSet : CmdRow :=
  { opcode := 0x0400, plen := 16, rlen := 0, change := true, hw := false, modes := cr, assigned := [(69, 0)] }
def flowProfileGet : CmdRow := { flowProfileSet with opcode := 0x0401, change := false, modes := crs }
def flowInstall : CmdRow :=
  { opcode := 0x0402, plen := 16, rlen := 16, change := true, hw := true, modes := cr, assigned := [(64, 0)] }
def flowDelete : CmdRow :=
  { opcode := 0x0403, plen := 40, rlen := 0, change := true, hw := true, modes := cr, assigned := [(309, 0)] }
def flowGet : CmdRow :=
  { opcode := 0x0404, plen := 24, rlen := 0, change := false, hw := true, modes := crs, assigned := [(153, 0)] }
def flowStatusGet : CmdRow :=
  { opcode := 0x0405, plen := 4, rlen := 32, change := false, hw := false, modes := crs, assigned := [(1, 0)] }

def bufClassSet : CmdRow :=
  { opcode := 0x0500, plen := 12, rlen := 0, change := true, hw := false, modes := cr
    assigned := [(34, 0), (95, 64)], handles := [(0, .sliceOrAll)] }
def bufClassGet : CmdRow :=
  { opcode := 0x0501, plen := 8, rlen := 4, change := false, hw := false, modes := crs, assigned := [(34, 0)]
    handles := [(0, .slice)] }
def voqFlush : CmdRow :=
  { opcode := 0x0502, plen := 4, rlen := 4, change := true, hw := false, modes := [.run], assigned := [(31, 0)]
    handles := [(0, .voq)] }
def gateListSet : CmdRow :=
  { opcode := 0x0510, plen := 40, rlen := 16, change := true, hw := false, modes := cr
    assigned := [(319, 160), (138, 32)], handles := [(32, .gate)] }
def gateListGet : CmdRow :=
  { opcode := 0x0511, plen := 16, rlen := 4, change := false, hw := false, modes := crs, assigned := [(127, 0)]
    handles := [(0, .gate)] }
def gateListAbort : CmdRow :=
  { opcode := 0x0512, plen := 4, rlen := 0, change := true, hw := false, modes := cr, assigned := [(31, 0)]
    handles := [(0, .gate)] }

def ptpTx : CmdRow :=
  { opcode := 0x0600, plen := 40, rlen := 17, change := true, hw := false, modes := [.run]
    assigned := [(319, 182), (127, 0)], handles := [(224, .port)] }
def tsCalGet : CmdRow :=
  { opcode := 0x0601, plen := 4, rlen := 24, change := false, hw := false, modes := crs, assigned := [(31, 0)]
    handles := [(0, .port)] }
def audCertGet : CmdRow :=
  { opcode := 0x0700, plen := 16, rlen := 4, change := false, hw := false, modes := crs, assigned := [(95, 0)] }
def audBufPost : CmdRow :=
  { opcode := 0x0701, plen := 16, rlen := 0, change := true, hw := false, modes := crs, assigned := [(97, 0)] }
def audBufReclaim : CmdRow :=
  { opcode := 0x0702, plen := 4, rlen := 4, change := true, hw := false, modes := [.configure, .safe]
    assigned := [(1, 0)] }
def audStatusGet : CmdRow :=
  { opcode := 0x0703, plen := 4, rlen := 40, change := false, hw := false, modes := crs, assigned := [(1, 0)] }

def ctrSnapshot : CmdRow :=
  { opcode := 0x0800, plen := 24, rlen := 8, change := false, hw := true, modes := crs, assigned := [(88, 0)] }
def sctrSet : CmdRow :=
  { opcode := 0x0801, plen := 24, rlen := 0, change := true, hw := false, modes := cr
    assigned := [(64, 0), (191, 128)], handles := [(0, .sctr)] }
def sctrGet : CmdRow :=
  { opcode := 0x0802, plen := 4, rlen := 24, change := false, hw := false, modes := crs, assigned := [(31, 0)]
    handles := [(0, .sctr)] }
def faultAck : CmdRow :=
  { opcode := 0x0900, plen := 16, rlen := 0, change := true, hw := false, modes := bcrs, assigned := [(127, 0)] }
def faultListGet : CmdRow :=
  { opcode := 0x0901, plen := 16, rlen := 4, change := false, hw := false, modes := bcrs, assigned := [(95, 0)] }
def faultWindowSet : CmdRow :=
  { opcode := 0x0902, plen := 8, rlen := 0, change := true, hw := false, modes := cr
    assigned := [(9, 0), (39, 16)] }
def faultInject : CmdRow :=
  { opcode := 0x09F0, plen := 16, rlen := 0, change := true, hw := false, modes := [.boot], assigned := [(127, 0)]
    factoryOnly := true }
def pwrVote : CmdRow :=
  { opcode := 0x0A00, plen := 8, rlen := 4, change := true, hw := false, modes := cr, assigned := [(32, 0)]
    handles := [(0, .dom)] }
def pwrStatusGet : CmdRow :=
  { opcode := 0x0A01, plen := 4, rlen := 32, change := false, hw := false, modes := crs, assigned := [(31, 0)]
    handles := [(0, .dom)] }

def selfTest : CmdRow :=
  { opcode := 0x0B00, plen := 16, rlen := 8, change := true, hw := false, modes := [.boot, .safe]
    assigned := [(95, 0)] }
def eyeScanStart : CmdRow :=
  { opcode := 0x0B10, plen := 32, rlen := 4, change := false, hw := false, modes := crs
    assigned := [(255, 128), (122, 32)], handles := [(128, .port)] }
def eyeScanStatus : CmdRow :=
  { opcode := 0x0B11, plen := 8, rlen := 8, change := false, hw := false, modes := crs, assigned := [(47, 0)]
    handles := [(0, .port)] }
def eyeScanAbort : CmdRow := { eyeScanStatus with opcode := 0x0B12, rlen := 0 }
def laneTestCtl : CmdRow :=
  { opcode := 0x0B20, plen := 8, rlen := 0, change := true, hw := false, modes := cr
    assigned := [(34, 0), (48, 40)], handles := [(0, .port)] }
def bundleLoad : CmdRow :=
  { opcode := 0x0F00, plen := 16, rlen := 0, change := true, hw := false, modes := [.boot], assigned := [(95, 0)] }
def bundleInfoGet : CmdRow :=
  { opcode := 0x0F01, plen := 0, rlen := 16, change := false, hw := false, modes := bcrs }
def flashUpdate : CmdRow :=
  { opcode := 0x0F02, plen := 16, rlen := 0, change := true, hw := false, modes := cr, assigned := [(95, 0)] }

end Cat
end Sys2Proof.Machine
end

