-- ==== Sys2Proof/Machine/Cmd.lean ====
section
/-! DEFINITION. What is common to every command of the command set: its start, the checks of R316 in their order,
waiting, and its completion. -/

namespace Sys2Proof.Machine

/-! ### Handle parameters (R13, R292, R316, R317, R320) -/

/-- The type field a handle parameter requires (Table 0.5). -/
def hType : HKind → Nat
  | .port => 3 | .slice => 2 | .sliceOrAll => 2 | .queue => 4 | .cq => 4 | .voq => 5 | .gate => 8 | .sctr => 13 | .dom => 14

/-- INDEX lies in the range that its type has on the full CX-2048 (R13, R292). -/
def hInRange (k : HKind) (i : Nat) : Bool :=
  match k with
  | .port => decide (i < 1024) | .slice => decide (i < 16) | .sliceOrAll => decide (i < 16) || i == 0xFFFFF
  | .queue => decide (i ≤ 256) | .cq => decide (65536 ≤ i) && decide (i ≤ 65792) | .voq => decide (i < 131072)
  | .gate => decide (i < 1024) | .sctr => decide (i < 512) | .dom => decide (i < 48)

/-- BAD_HANDLE: generation 0x00, a type or kind the parameter does not take, or an index out of range. -/
def hBad (k : HKind) (h : Handle) : Bool :=
  fld h 31 24 == 0 || fld h 23 20 != hType k || !hInRange k (fld h 19 0)

/-- The egress port of a VOQ index (R11). -/
def voqPort (v : Nat) : Nat := v % 8192 / 8

/-- The generation an index holds (R317): a VOQ and a gate list carry that of their port index. -/
def hGen (s : State) (k : HKind) (i : Nat) : BitVec 8 :=
  match k with
  | .port => s.portGenOf i | .gate => s.portGenOf i | .voq => s.portGenOf (voqPort i)
  | .queue => s.queueGenOf i | .cq => s.cqGenOf (i - 65536)
  | .slice => 1 | .sliceOrAll => 1 | .sctr => 1 | .dom => 1

/-- The object whose destruction ends a handle's generation: the port of a VOQ or gate list, else the object. -/
def hOwner (k : HKind) (h : Handle) : Handle :=
  let g := BitVec.ofNat 8 (fld h 31 24)
  match k with
  | .voq => mkHandle g 3 (voqPort (fld h 19 0))
  | .gate => mkHandle g 3 (fld h 19 0)
  | _ => h

/-- UNIT_ABSENT: the index is absent on the member (R3, R13). -/
def hAbsent (s : State) (k : HKind) (i : Nat) : Bool :=
  match k with
  | .port => !sliceThere s (i / 64) | .gate => !sliceThere s (i / 64)
  | .voq => !sliceThere s (i / 8192) || !sliceThere s (voqPort i / 64)
  | .slice => !sliceThere s i | .sliceOrAll => i != 0xFFFFF && !sliceThere s i
  | .sctr => !sliceThere s (i / 32) | .dom => !domThere s i | .queue => false | .cq => false

/-- STALE: the generation is not current, or a destroy in execution has retired it (R317, R318). A handle of an absent unit is
UNIT_ABSENT whatever its generation (R3, the example of R14; assumption 24). -/
def hStale (s : State) (k : HKind) (h : Handle) : Bool :=
  !hAbsent s k (fld h 19 0) &&
    (BitVec.ofNat 8 (fld h 31 24) != hGen s k (fld h 19 0) || s.host.retiring.contains (hOwner k h))

/-- NOT_FOUND: the index holds no object (R320). -/
def hMissing (s : State) (k : HKind) (i : Nat) : Bool :=
  match k with
  | .port => (s.port i).isNone | .gate => (s.port i).isNone | .voq => (s.port (voqPort i)).isNone
  | .queue => (s.queue i).isNone | .cq => (s.cq (i - 65536)).isNone
  | .slice => false | .sliceOrAll => false | .sctr => false | .dom => false

/-- The handle at a parameter bit. -/
def paramHandle (param : BitVec 384) (lo : Nat) : Handle := BitVec.ofNat 32 (fld param (lo + 31) lo)

/-- Some handle parameter of a row has a property. -/
def anyHandle (row : CmdRow) (param : BitVec 384) (p : HKind → Handle → Bool) : Bool :=
  row.handles.any (fun e => p e.2 (paramHandle param e.1))

/-! ### Commands in execution -/

/-- Every row of the catalogue, in the order of Tables 12.2 to 12.11. -/
def catalogue : List CmdRow :=
  [Cat.nop, Cat.modeSet, Cat.queueCreate, Cat.queueDestroy, Cat.cqCreate, Cat.cqDestroy, Cat.protSet, Cat.queueStatusGet,
   Cat.portCreate, Cat.portDestroy, Cat.portStatusGet, Cat.portAttrSet, Cat.portHoldClear, Cat.laneStatusGet, Cat.laneCfgSet,
   Cat.laneCfgGet, Cat.laneAdaptCtl, Cat.laneRetireClear, Cat.laneSerCfg, Cat.hostAdd, Cat.hostDelete, Cat.search, Cat.next,
   Cat.flushByPort, Cat.lpmAdd, Cat.lpmDelete, Cat.tableInfo, Cat.rulesetOpen, Cat.rulesetCommit, Cat.rulesetAbort,
   Cat.versionStatusGet, Cat.keyProfileSet, Cat.parseNodeSet, Cat.csStageLoad] ++
  [Cat.flowProfileSet, Cat.flowProfileGet, Cat.flowInstall, Cat.flowDelete, Cat.flowGet, Cat.flowStatusGet, Cat.bufClassSet,
   Cat.bufClassGet, Cat.voqFlush, Cat.gateListSet, Cat.gateListGet, Cat.gateListAbort, Cat.ptpTx, Cat.tsCalGet, Cat.audCertGet,
   Cat.audBufPost, Cat.audBufReclaim, Cat.audStatusGet, Cat.ctrSnapshot, Cat.sctrSet, Cat.sctrGet, Cat.faultAck,
   Cat.faultListGet, Cat.faultWindowSet, Cat.faultInject, Cat.pwrVote, Cat.pwrStatusGet, Cat.selfTest, Cat.eyeScanStart,
   Cat.eyeScanStatus, Cat.eyeScanAbort, Cat.laneTestCtl, Cat.bundleLoad, Cat.bundleInfoGet, Cat.flashUpdate]

/-- The row of an opcode; `none` for an opcode the manual does not define (R324). -/
def rowOf (opcode : Nat) : Option CmdRow := catalogue.find? (fun r => r.opcode == opcode)

/-- A command in execution by a queue has a property. -/
def Exec.counts (p : Nat → CmdRow → Bool) (queue : Nat) (x : Exec) : Bool :=
  match rowOf x.opcode.toNat with
  | some r => p queue r
  | none => false

/-- Commands in execution that a property holds of; those that a host-interface reset has left without a queue run on (R287)
and hold their slots until they end (R321). -/
def countExec (s : State) (p : Nat → CmdRow → Bool) : Nat :=
  (s.host.queues.map (fun e => e.2.inExec.countP (Exec.counts p e.1))).sum +
    s.host.orphans.countP (fun o => o.exec.counts p o.queue.toNat)

/-- Kettle and hardware execution slots (R321): 64 K slots, 8 of them for queue 0, and 256 HW commands. -/
def slotFree (s : State) (qn : Nat) (row : CmdRow) : Bool :=
  if row.hw then decide (countExec s (fun _ r => r.hw) < 256)
  else decide (countExec s (fun _ r => !r.hw) < 64) &&
    (qn == 0 || decide (countExec s (fun n r => n != 0 && !r.hw) < 56))

/-- Places of a completion ring that are taken: commands in execution, and completions not yet written (R301). -/
def placesTaken (s : State) (cqn : Nat) (c : CRing) : Nat :=
  (s.host.queues.map (fun e => if e.2.cq.toNat = cqn then e.2.inExec.length else 0)).sum + c.finished.length + c.held.length

/-- A place is left for one more completion: in the ring or among the 64 on chip (R301). -/
def placeLeft (s : State) (cqn : Nat) : Bool :=
  match s.cq cqn with
  | none => false
  | some c => decide (placesTaken s cqn c < c.room + 64)

/-- A fenced command of the queue is in execution (R300). -/
def fencedBusy (q : Queue) : Bool :=
  q.inExec.any (fun e => match rowOf e.opcode.toNat with
    | some r => r.fenced
    | none => false)

/-- A command of a queue may start, its completion place apart (R300, R321). -/
def mayStart (s : State) (qn : Nat) (q : Queue) (row : CmdRow) (fence : Bool) : Bool :=
  q.state == .running && decide (s.mode ≠ .reset) && decide (s.mode ≠ .lockout) && decide (q.inExec.length < 16) &&
  !((fence || row.fenced) && !q.inExec.isEmpty) && !fencedBusy q && slotFree s qn row

/-- COMPLETION_STALL of a ring: written on the admin event ring, or held as the ring's bit (R301, R303). -/
def State.postStall (s : State) (cqn tb : Nat) : State :=
  match s.eventRing 0 with
  | none => s
  | some r =>
    if 0 < r.room then
      s.writeEvent 0 r
        { kind := 6, src := cqHandle s cqn, payload := pack 320 [(8, 0, cqn), (63, 32, tb)]
          postNs := BitVec.ofNat 64 s.tbNs }
    else s.modCq cqn (fun c => { c with oweStall := some tb })

/-- COMPLETION_RESUME of a ring, with the duration of its stall. -/
def State.postResume (s : State) (cqn dur : Nat) : State :=
  match s.eventRing 0 with
  | none => s
  | some r =>
    if 0 < r.room && (s.cq cqn).all (fun c => c.oweStall.isNone) then
      s.writeEvent 0 r
        { kind := 7, src := cqHandle s cqn, payload := pack 320 [(8, 0, cqn), (127, 64, dur)]
          postNs := BitVec.ofNat 64 s.tbNs }
    else s.modCq cqn (fun c => { c with oweResume := some dur })

/-- A start found no completion place: the ring stalls, once (R301). -/
def State.stallRing (s : State) (cqn : Nat) : State :=
  match s.cq cqn with
  | none => s
  | some c =>
    if c.stalledAt.isSome then s
    else (((s.modCq cqn (fun c => { c with stalledAt := some s.tbNs })).countQueue cqn 16 1)).postStall cqn s.tbNs

/-! ### Completion -/

/-- A command's completion is decided; COMPLETION_WRITE writes it (R301, R315). -/
def State.complete (s : State) (qn : Nat) (index : BitVec 16) (tag : BitVec 32) (st : Status) (rlen : Nat)
    (result : BitVec 384) : State :=
  match s.queue qn with
  | none => s
  | some q =>
    let ok := st == .ok
    let c : Comp :=
      { queue := BitVec.ofNat 9 qn, index := index, tag := tag, status := st
        rlen := if ok then BitVec.ofNat 8 rlen else 0, result := if ok then result else 0 }
    s.modCq q.cq.toNat (fun r => { r with finished := r.finished ++ [c] })

/-- The opcodes whose commands retire a handle from their start (R318): PORT_DESTROY, QUEUE_DESTROY, CQ_DESTROY. -/
def retires (opcode : Nat) : Bool := opcode == 0x0101 || opcode == 0x0011 || opcode == 0x0013

/-- A command in execution has retired its handle: a destroy that was not itself STALE at its start (R318). -/
def Exec.retired (e : Exec) : Bool := retires e.opcode.toNat && !e.stale

/-- A command leaves execution: its COMMAND votes are withdrawn, and a handle it retired is current again unless
its generation has moved on (R318, R361). -/
def State.endExec (s : State) (qn : Nat) (e : Exec) : State :=
  let s1 := s.modQueue qn (fun q => { q with inExec := q.inExec.filter (fun x => x.index ≠ e.index) })
  let s2 := if e.retired then
      { s1 with host := { s1.host with retiring := s1.host.retiring.filter (fun h => h ≠ paramHandle e.param 0) } }
    else s1
  foldNats e.votes (fun a d => a.dropVote d { kind := 4, client := queueHandle s qn }) s2

/-- A command completes. -/
def State.finish (s : State) (qn : Nat) (e : Exec) (st : Status) (rlen : Nat) (result : BitVec 384) : State :=
  (s.complete qn e.index e.tag st rlen result).endExec qn e

/-- The command in execution at a queue's submission index. -/
def State.findExec (s : State) (qn : Nat) (index : BitVec 16) : Option Exec :=
  match s.queue qn with
  | none => none
  | some q => q.inExec.find? (fun e => e.index == index)

/-- A waiting command that an event row completes. -/
def State.finishAt (s : State) (qn : Nat) (index : BitVec 16) (st : Status) (rlen : Nat) (result : BitVec 384) : State :=
  match s.findExec qn index with
  | none => s
  | some e => s.finish qn e st rlen result

/-! ### Start -/

/-- PROT of a domain (Table 11.17): domain 0's is fixed. -/
def protOf (s : State) (d : Nat) : BitVec 32 :=
  if d = 0 then 0xC0FFFFFF else Map.val s.host.prot d 0x40555555

/-- A queue may run a row under its privilege domain, and on queue 0 only where the row says so (R294, R305). -/
def allowed (s : State) (qn : Nat) (q : Queue) (row : CmdRow) : Bool :=
  bitAt (protOf s q.domain.toNat) (2 * (row.opcode / 256) + (if row.change then 1 else 0)) && (!row.ownQueue || qn == 0)

/-- The current mode accepts a row (R323, R329). -/
def modeTakes (s : State) (row : CmdRow) : Bool :=
  row.modes.contains s.mode && (!row.factoryOnly || (s.dev.factory && s.fuses.factoryIntact))

/-- The domains that a command's parameter handles name: the slice of a port, VOQ, gate list or sampling counter; for a lane
command the SerDes group of its port (R361). -/
def handleDoms (s : State) (op : Nat) (k : HKind) (i : Nat) : List Nat :=
  match k with
  | .port =>
    if op == 0x0204 then []
    else if op / 16 == 0x014 || op / 16 == 0x0B1 || op == 0x0B20 then [20 + i / 64] else [4 + i / 64]
  | .slice => [4 + i]
  | .sliceOrAll => if i == 0xFFFFF then (slicesThere s).map (4 + ·) else [4 + i]
  | .voq => [4 + i / 8192]
  | .gate => [4 + i / 64]
  | .sctr => [4 + i / 32]
  | .queue => [] | .cq => [] | .dom => []

/-- The domains that a command's opcode and other parameters name: the crossbar domains of host-table and LPM commands, Infuser and
HBM of flow commands, the TAU, the stores of CS_STAGE_LOAD. A domain that depends on a key or a buffer is added when the command
acts. -/
def opcodeDoms (s : State) (op : Nat) (param : BitVec 384) : List Nat :=
  if op == 0x0200 || op == 0x0201 || op == 0x0205 || op == 0x0206 then (quadsThere s).map (36 + ·)
  else if op == 0x0204 then if fld param 55 48 == 4 then (quadsThere s).flatMap (fun q => [44 + q, 40 + q]) else (quadsThere s).map (36 + ·)
  else if op == 0x0400 then (quadsThere s).map (44 + ·)
  else if op == 0x0401 then [44]
  else if op == 0x0405 then [44 + fld param 1 0]
  else if op / 16 == 0x070 then [3]
  else if op == 0x0F20 then
    (if fld param 104 96 = 0 then [] else (slicesThere s).map (4 + ·)) ++ (if bitAt param 105 then (quadsThere s).map (44 + ·) else [])
  else []

/-- The domains that a command reads or writes, as far as its entry tells (R361). -/
def startDoms (s : State) (row : CmdRow) (param : BitVec 384) : List Nat :=
  ((row.handles.flatMap (fun e => handleDoms s row.opcode e.2 (fld (paramHandle param e.1) 19 0)) ++
    opcodeDoms s row.opcode param).filter (domThere s)).eraseDups

/-- A command starts (R300): its entry's O is cleared, its mode and privilege are decided (R316), and unless they
refuse it, it is in execution from now on, with a COMMAND vote on each domain that it reads or writes (R361). One whose handles
refuse it reads and writes none. -/
def State.start (s : State) (qn : Nat) (q : Queue) (row : CmdRow) (index : BitVec 16) (tag : BitVec 32)
    (param : BitVec 384) : State :=
  let s0 := (s.emit (.dma (entryAddr q.sqBase index + 63) [0])).countQueue qn 0 1
  if !modeTakes s row then (s0.countQueue qn 2 1).complete qn index tag .badMode 0 0
  else if !allowed s qn q row then (s0.countQueue qn 1 1).complete qn index tag .denied 0 0
  else
    let bad := anyHandle row param hBad
    let stale := !bad && anyHandle row param (hStale s)
    let refused := bad || stale || anyHandle row param (fun k h => hAbsent s k (fld h 19 0) || hMissing s k (fld h 19 0))
    let ds := if refused then [] else startDoms s row param
    let e : Exec :=
      { index := index, tag := tag, opcode := BitVec.ofNat 16 row.opcode, param := param, stale := stale, begun := false
        votes := ds }
    let s1 := foldNats ds (fun a d => a.takeVote d { kind := 4, client := queueHandle s qn })
      (s0.modQueue qn (fun q => { q with inExec := q.inExec ++ [e] }))
    if retires row.opcode && !bad && !stale then
      { s1 with host := { s1.host with retiring := s1.host.retiring ++ [paramHandle param 0] } }
    else s1

/-- A word whose bits are the assigned parameter bits of a row. -/
def assignedMask (row : CmdRow) : Nat := row.assigned.foldl (fun a r => a ||| ((2 ^ (r.1 + 1 - r.2) - 1) <<< r.2)) 0

/-- A parameter bit that is assigned to no field is set (R313). -/
def paramReserved (row : CmdRow) (param : BitVec 384) : Bool := param.toNat - (param.toNat &&& assignedMask row) != 0

/-- RUNNING falls once EN is 0 and the commands of queue 0 have written their completions (Table 11.8). -/
def State.adminSettle (s : State) : State :=
  let idle := (s.queue 0).all (fun q => q.inExec.isEmpty) && (s.cq 0).all (fun c => c.finished.isEmpty && c.held.isEmpty)
  if !bitAt s.host.adminCtl 63 && idle then { s with host := { s.host with adminRunning := false } } else s

/-- A queue stops on a malformed entry or a failed ring read: HALTED, its window discarded; for queue 0 EN is cleared
and HALTED set (R286, R299, Table 11.8). -/
def State.haltQueue (s : State) (qn : Nat) : State :=
  let s1 := s.modQueue qn (fun q => { q with state := .halted, fetched := [], windowed := false, failedRead := .none })
  if qn = 0 then
    State.adminSettle { s1 with host := { s1.host with adminCtl := setFld s1.host.adminCtl 63 63 0, adminHalted := true } }
  else s1

/-- A malformed entry at an index: RING_MALFORMED, HALT (R299). -/
def State.malformed (s : State) (qn : Nat) (index : BitVec 16) : State :=
  (s.haltQueue qn).raise 0x1002 0x006 3 (s.queueGenOf qn).toNat (qn * 65536 + index.toNat)

/-- A command row that no COMMAND_START has started starts now, as the entry at its index (assumption 20). The fetch
index moves on where the row's index is the one to fetch. -/
def State.startRow (s : State) (sub : Sub) (row : CmdRow) (param : BitVec 384) : State :=
  match s.queue sub.queue.toNat with
  | none => s
  | some q =>
    if paramReserved row param then (if q.state == .running then s.malformed sub.queue.toNat sub.index else s)
    else if !mayStart s sub.queue.toNat q row false then s
    else if !placeLeft s q.cq.toNat then s.stallRing q.cq.toNat
    else
      let n := advance q.sqExp q.index q.lap
      let s1 := if q.fetched.isEmpty && sub.index == q.index then
          s.modQueue sub.queue.toNat (fun q => { q with index := n.1, lap := n.2 })
        else s
      s1.start sub.queue.toNat q row sub.index sub.tag param

/-! ### Acting -/

/-- How a command's own rule ends: OK with its result, another status, or a wait that an event row ends. -/
inductive Res where
  | ok (result : BitVec 384) (next : State)
  | fail (st : Status) (next : State)
  | wait (next : State)

/-- A command's own part: what makes it BAD_PARAM, UNIT_ABSENT beyond its handles, the domains it reads or writes, and
its rule. `again` is what a command that has begun and waits does when its row comes again. -/
structure Body where
  bad : State → Bool := fun _ => false
  absent : State → Bool := fun _ => false
  doms : State → List Nat := fun _ => []
  act : State → Res
  again : State → Res := .wait

/-- Steps 3 to 7 of R316, and BAD_MODE for a command that SAFE does not accept and that has not yet acted (R322). -/
def firstStatus (s : State) (row : CmdRow) (e : Exec) (b : Body) : Option Status :=
  if s.mode == .safe && !row.modes.contains .safe then some .badMode
  else if anyHandle row e.param hBad then some .badHandle
  else if b.bad s then some .badParam
  else if e.stale then some .stale
  else if anyHandle row e.param (fun k h => hAbsent s k (fld h 19 0)) || b.absent s then some .unitAbsent
  else if anyHandle row e.param (fun k h => hMissing s k (fld h 19 0)) then some .notFound
  else none

/-- A wait that has not acted ends with BAD_MODE once SAFE is entered (R322). -/
def orBadMode (act : State → Res) (s : State) : Res := if s.mode == .safe then .fail .badMode s else act s

/-- The end of one pass of a command's own rule. -/
def Res.settled (r : Res) (qn : Nat) (row : CmdRow) (e : Exec) : State :=
  match r with
  | .ok result t => t.finish qn e .ok row.rlen result
  | .fail st t => t.finish qn e st 0 0
  | .wait t => t.modQueue qn (fun q => { q with
      inExec := q.inExec.map (fun x => if x.index = e.index then { x with begun := true } else x) })

/-- The domains present that a command reads or writes and holds no COMMAND vote on yet. -/
def Exec.fresh (s : State) (ds : List Nat) (e : Exec) : List Nat :=
  (ds.filter (domThere s)).filter (fun d => !e.votes.contains d)

/-- A command with its COMMAND votes on some domains (R361). -/
def Exec.voting (s : State) (ds : List Nat) (e : Exec) : Exec := { e with votes := e.votes ++ e.fresh s ds }

/-- The state in which a command acts: it holds a COMMAND vote on each domain that it reads or writes (R361). -/
def State.readied (s : State) (qn : Nat) (ds : List Nat) (e : Exec) : State :=
  if (e.fresh s ds).isEmpty then s
  else (foldNats (e.fresh s ds) (fun a d => a.takeVote d { kind := 4, client := queueHandle s qn }) s).modQueue qn
    (fun q => { q with inExec := q.inExec.map (fun x => if x.index = e.index then e.voting s ds else x) })

/-- Every domain present of a list is in service. -/
def State.allOn (s : State) (ds : List Nat) : Bool := (ds.filter (domThere s)).all s.domOn

/-- A command in execution acts: its checks, the wakes its domains need (R361), then its own rule. -/
def State.actOn (s : State) (qn : Nat) (row : CmdRow) (e : Exec) (b : Body) : State :=
  if e.begun then (b.again s).settled qn row e
  else
    match firstStatus s row e b with
    | some st => s.finish qn e st 0 0
    | none =>
      let u := s.readied qn (b.doms s) e
      if u.allOn (b.doms s) then (b.act u).settled qn row (e.voting s (b.doms s)) else u

/-! ### Commands that a reset of the host interface leaves without a queue (R287) -/

/-- A frame of a PTP_TX whose completion nobody awaits. Queue 511 does not exist. -/
def Frame.disown (queue : QueueNo) (index : BitVec 16) (f : Frame) : Frame :=
  match f.kind with
  | .ptpTx q i m a b c => if q = queue ∧ i = index then { f with kind := .ptpTx 511 i m a b c } else f
  | .received => f
  | .auditExport _ _ => f
  | .postcard _ => f

def EqFrame.disown (queue : QueueNo) (index : BitVec 16) (e : EqFrame) : EqFrame := { e with frame := e.frame.disown queue index }
def Port.disown (queue : QueueNo) (index : BitVec 16) (x : Port) : Port :=
  { x with
    egr := x.egr.map (fun k => (k.1, { k.2 with queue := k.2.queue.map (EqFrame.disown queue index) }))
    tx := x.tx.map (EqFrame.disown queue index) }

/-- What goes on for a command no longer names its queue: VOQ flushes, the commit, frames of PTP_TX. -/
def State.disown (s : State) (queue : QueueNo) (index : BitVec 16) : State :=
  { s with
    voqs := s.voqs.map (fun e => (e.1, { e.2 with
      onDie := e.2.onDie.map (Frame.disown queue index), spill := e.2.spill.map (Frame.disown queue index)
      waiters := e.2.waiters.filter (fun w => !(w.1 == queue && w.2.1 == index)) }))
    fabric := s.fabric.map (fun c => { c with frame := c.frame.disown queue index })
    slices := s.slices.map (fun e => (e.1, { e.2 with reorder := e.2.reorder.map (fun r => (r.1, { r.2 with
      waiting := r.2.waiting.map (fun c => { c with frame := c.frame.disown queue index }) })) }))
    ports := s.ports.map (fun e => (e.1, e.2.disown queue index))
    vers := { s.vers with commit := s.vers.commit.map (fun j =>
      if j.queue = queue ∧ j.index = index then { j with queue := 511 } else j) } }

/-- The orphan that a row names. -/
def State.orphanOf (s : State) (sub : Sub) (row : CmdRow) (param : BitVec 384) : Option Orphan :=
  s.host.orphans.find? (fun o =>
    o.queue == sub.queue && o.exec.index == sub.index && o.exec.opcode.toNat == row.opcode && o.exec.param == param)

/-- An orphan changes, or ends: its votes and the handle it retired go as with any command. -/
def State.setOrphan (s : State) (o o' : Orphan) : State :=
  { s with host := { s.host with orphans := s.host.orphans.map (fun x => if x = o then o' else x) } }
def State.endOrphan (s : State) (o : Orphan) : State :=
  let s1 : State := { s with host := { s.host with
    orphans := s.host.orphans.erase o
    retiring := if o.exec.retired then s.host.retiring.filter (fun h => h ≠ paramHandle o.exec.param 0)
      else s.host.retiring } }
  foldNats o.exec.votes (fun a d => a.dropVote d { kind := 4, client := o.client }) s1

/-- Outputs since a state, without the DMA of results (R287). -/
def State.withoutDma (t s : State) : State :=
  { t with out := s.out ++ (t.out.drop s.out.length).filter (fun o => match o with
      | .dma _ _ => false
      | _ => true) }

/-- One pass of an orphan's own rule. -/
def State.orphanRes (s : State) (o : Orphan) (r : Res) : State :=
  match r with
  | .ok _ t => (t.withoutDma s).endOrphan o
  | .fail _ t => (t.withoutDma s).endOrphan o
  | .wait t => ((t.withoutDma s).disown o.queue o.exec.index).setOrphan o { o with exec := { o.exec with begun := true } }

/-- An orphan acts as a command in execution does. -/
def State.actOrphan (s : State) (row : CmdRow) (o : Orphan) (b : Body) : State :=
  if o.exec.begun then s.orphanRes o (b.again s)
  else
    match firstStatus s row o.exec b with
    | some _ => s.endOrphan o
    | none =>
      let ds := (b.doms s).filter (domThere s)
      let fresh := ds.filter (fun d => !o.exec.votes.contains d)
      let o1 := { o with exec := { o.exec with votes := o.exec.votes ++ fresh } }
      let s1 := (foldNats fresh (fun a d => a.takeVote d { kind := 4, client := o.client }) s).setOrphan o o1
      if ds.all s1.domOn then s1.orphanRes o1 (b.act s1) else s1

/-- A command row: a command already started acts; one not yet started starts and acts. A row whose command is not in
execution and may not start changes nothing (assumption 20). -/
def runCommand (row : CmdRow) (sub : Sub) (param : BitVec 384) (b : Body) (s : State) : State :=
  if s.mode = .reset ∨ s.mode = .lockout then s
  else
    match s.findExec sub.queue.toNat sub.index with
    | some e => if e.opcode.toNat = row.opcode ∧ e.param = param then s.actOn sub.queue.toNat row e b else s
    | none => match s.orphanOf sub row param with
    | some o => s.actOrphan row o b
    | none =>
      let s1 := s.startRow sub row param
      match s1.findExec sub.queue.toNat sub.index with
      | some e => s1.actOn sub.queue.toNat row e b
      | none => s1

/-- A DMA write of a result buffer (R285). -/
def State.writeBuf (s : State) (addr : Addr) (bytes : List Byte) : State := s.emit (.dma addr bytes)

/-- A buffer address that is not 64-byte aligned (R314). -/
def misaligned (a : Addr) : Bool := a.toNat % 64 != 0

end Sys2Proof.Machine
end

