-- ==== Sys2Proof/Machine/Rings.lean ====
section
/-! DEFINITION. Queues, completion rings and event rings (R291 to R304): their commands, their rows and the admin
registers. -/

namespace Sys2Proof.Machine

/-! ### Shared parts -/

/-- The host interface is alive: the PCIe link is up, and the mode is not RESET or LOCKOUT (R311, Table 1.6). -/
def State.hostUp (s : State) : Bool := s.mode != .reset && s.mode != .lockout && s.dev.pcieUp

/-- A value lies in a range. -/
def inRange (v lo hi : Nat) : Bool := decide (lo ≤ v) && decide (v ≤ hi)

/-- A base that is not 4 KiB aligned (R293). -/
def badBase (a : Addr) : Bool := a.toNat % 4096 != 0

/-- POLL_NS and EXP out of their ranges (R293, Table 11.9). -/
def badPoll (p : Nat) : Bool := !inRange p 100 1000000000
def badExp (e : Nat) : Bool := !inRange e 4 16

/-- An event ring right after its creation, every entry with O = 1. -/
def EvRing.create (base : Addr) (exp : BitVec 5) (vec : BitVec 8) (irq : Bool) : EvRing :=
  { base := base, exp := exp, irq := { vector := vec, enabled := irq, holdNs := 1000, untilNs := 0, owed := false }
    index := 0, lap := 1, room := 2 ^ exp.toNat, reads := .live, held := [], dropped := [] }

/-- A completion ring right after its creation. -/
def CRing.create (base : Addr) (exp : BitVec 5) (poll : BitVec 30) (vec : BitVec 8) (irq : Bool) (coal : Nat) : CRing :=
  { base := base, exp := exp, pollNs := poll
    irq := { vector := vec, enabled := irq, holdNs := coal, untilNs := 0, owed := false }
    index := 0, lap := 1, room := 2 ^ exp.toNat, reads := .live, finished := [], held := [], stalledAt := none, oweStall := none
    oweResume := none }

/-- A queue right after its creation. -/
def Queue.create (domain : BitVec 2) (base : Addr) (exp : BitVec 5) (poll : BitVec 30) (cq : QueueNo)
    (ev : Option EvRing) (now : Nat) : Queue :=
  { domain := domain, sqBase := base, sqExp := exp, pollNs := poll, cq := cq, state := .running, index := 0, lap := 1
    fetched := [], windowed := false, failedRead := .none, inExec := [], events := ev, stallNs := 0, createdNs := now }

/-- The admin event ring before EN = 1 has set it up: it has no entry to write, and holds what is posted to it (R303; Table 11.8:
EQ_EXP 8). -/
def EvRing.admin : EvRing := { EvRing.create 0 8 0 true with room := 0 }

/-- Queue 0 as it exists from BOOT on with EN = 0 (R291, Table 11.21). -/
def Queue.admin : Queue := { Queue.create 0 0 6 1000 0 (some EvRing.admin) 0 with state := .stopped }

/-- Completion ring 0 as it exists from BOOT on (Table 11.9: COAL_NS 0, IRQ_EN 1). -/
def CRing.admin : CRing := { CRing.create 0 6 1000 0 true 0 with room := 0 }

/-! ### Delivery of what waits for room -/

/-- FAULT events for the messages that wait, in order of decision, while the admin event ring has room (R303, R355).
The record is remembered until the host returns it. -/
def State.postWaiting : Nat → State → State
  | 0, s => s
  | n + 1, s =>
    match s.faults.waiting, s.eventRing 0 with
    | m :: rest, some r =>
      if 0 < r.room then
        State.postWaiting n
          (({ s with faults := { s.faults with waiting := rest, posted := s.faults.posted ++ [m] } } : State).writeEvent 0 r
            { kind := 5, src := 0, payload := m.setWidth 320, postNs := BitVec.ofNat 64 s.tbNs })
      else s
    | _, _ => s

/-- The stall and resume records that completion rings owe (R303). -/
def State.postOwed (s : State) : State :=
  foldNats (s.host.cqs.map (·.1)) (fun a n =>
    let a1 := match (a.cq n).bind (·.oweStall) with
      | some t => (a.modCq n (fun c => { c with oweStall := none })).postStall n t
      | none => a
    match (a1.cq n).bind (·.oweResume) with
    | some d => (a1.modCq n (fun c => { c with oweResume := none })).postResume n d
    | none => a1) s

/-- Held events of a ring, in order of posting, while it has room for them (R303). -/
def State.postHeldEvents : Nat → Nat → State → State
  | 0, _, s => s
  | n + 1, q, s =>
    match s.eventRing q with
    | none => s
    | some r =>
      match r.held with
      | [] => s
      | e :: rest =>
        if 0 < usable q false r then State.postHeldEvents n q (s.writeEvent q { r with held := rest } e) else s

/-- Everything that waits for room on a queue's event ring. -/
def State.deliver (s : State) (q : Nat) : State :=
  let s1 := if q = 0 then State.postWaiting s.faults.waiting.length s.postOwed else s
  State.postHeldEvents 64 q s1

/-- The entry of Table 11.12. -/
def completionEntry (c : Comp) (lap : BitVec 8) : Entry :=
  pack 512 [(479, 464, c.index.toNat), (463, 448, c.queue.toNat), (447, 64, c.result.toNat), (63, 32, c.tag.toNat),
    (31, 24, lap.toNat), (23, 16, c.rlen.toNat), (15, 0, statusCode c.status)]

/-- A completion written at a ring's next entry, with its interrupt. -/
def State.writeComp (s : State) (cqn : Nat) (r : CRing) (c : Comp) : State :=
  let n := advance r.exp r.index r.lap
  let i := Irq.written s.tbNs r.irq
  let s1 := (s.emit (.record (entryAddr r.base r.index) (completionEntry c r.lap))).modCq cqn
    (fun _ => { r with index := n.1, lap := n.2, room := r.room - 1, irq := i.1 })
  if i.2 then s1.msix r.irq.vector else s1

/-- Held completions, in the order in which they completed, while the ring has room (R301). -/
def State.writeHeld : Nat → Nat → State → State
  | 0, _, s => s
  | n + 1, cqn, s =>
    match s.cq cqn with
    | none => s
    | some r =>
      match r.held with
      | [] => s
      | c :: rest =>
        if 0 < r.room then State.writeHeld n cqn ((s.writeComp cqn { r with held := rest } c).countQueue cqn 17 1) else s

/-- A stalled ring whose hold is empty again and that has a place resumes: COMPLETION_RESUME, and each bound queue's
STALL_NS (R301). -/
def State.resumeRing (s : State) (cqn : Nat) : State :=
  match s.cq cqn with
  | none => s
  | some c =>
    match c.stalledAt with
    | none => s
    | some t =>
      if c.held.isEmpty && placeLeft s cqn then
        let dur := s.tbNs - t
        let s1 := s.modCq cqn (fun c => { c with stalledAt := none })
        let s2 : State := { s1 with host := { s1.host with queues := s1.host.queues.map (fun e =>
          (e.1, if e.2.cq.toNat = cqn then { e.2 with stallNs := e.2.stallNs + (s.tbNs - max t e.2.createdNs) } else e.2)) } }
        s2.postResume cqn dur
      else s

/-! ### Ring rows -/

/-- The ownership bit and the lap of an entry (R295). -/
def entryO (e : Entry) : Bool := bitAt e 511
def entryLap (e : Entry) : BitVec 8 := BitVec.ofNat 8 (fld e 31 24)

/-- The entry at the fetch index that a LAP_REREAD is due for: O = 1 with another LAP than its index has (step 4 of R298). -/
def Queue.wrongLap (q : Queue) : Bool :=
  match q.fetched with
  | [] => false
  | e :: _ => entryO e && decide (entryLap e ≠ q.lap)

/-- The window has come to an entry with O = 0: it and every later window entry are discarded, and the queue polls again
(step 3 of R298). -/
def State.takeWindow (s : State) (qn : Nat) : State :=
  match s.queue qn with
  | none => s
  | some q =>
    match q.fetched with
    | [] => s
    | e :: rest =>
      if entryO e then s
      else (s.modQueue qn (fun q => { q with fetched := [], windowed := false })).countQueue qn 4 (rest.length + 1)

/-- What a read of the ring returned (R298). A poll reads the entry at the fetch index: with O = 0 the queue stays idle, with
O = 1 that entry and what follows it become the window, which never exceeds 8 entries. -/
def State.takeRead (s : State) (qn : Nat) (q : Queue) (read : List Entry) : State :=
  if q.windowed then
    (s.modQueue qn (fun q => { q with
      fetched := q.fetched ++ read.take (8 - q.fetched.length), failedRead := .none })).takeWindow qn
  else
    match read with
    | [] => s.modQueue qn (fun q => { q with failedRead := .none })
    | e :: _ =>
      if entryO e then s.modQueue qn (fun q => { q with fetched := read.take 8, windowed := true, failedRead := .none })
      else s.modQueue qn (fun q => { q with failedRead := .none })

/-- The entry at the fetch index read again (step 4 of R298): malformed where its LAP is still wrong. -/
def State.takeReread (s : State) (qn : Nat) (q : Queue) (e : Entry) : State :=
  if entryO e && decide (entryLap e ≠ q.lap) then s.malformed qn q.index
  else (s.modQueue qn (fun q => { q with fetched := e :: q.fetched.drop 1, failedRead := .none })).takeWindow qn

/-- A queue that fetches: it exists, runs, and the host interface is alive. -/
def State.fetching (s : State) (qn : Nat) : Option Queue :=
  match s.queue qn with
  | none => none
  | some q => if s.hostUp && q.state == .running then some q else none

/-- QUEUE_POLL (R298): the ring read returned the entries from the end of the window on, or failed (R286). A read with no window
kept is a poll. -/
def pollQueue (qn : Nat) (read : Option (List Entry)) (s : State) : State :=
  match s.fetching qn with
  | none => s
  | some q =>
    if q.failedRead != .none || decide (8 ≤ q.fetched.length) then s
    else
      let s1 := if q.windowed then s else s.countQueue qn 3 1
      match read with
      | none => s1.modQueue qn (fun q => { q with failedRead := .window })
      | some es => s1.takeRead qn q es

/-- LAP_REREAD (R298): the entry with a wrong LAP, read again 1 µs later, once every entry before it has started. -/
def rereadLap (qn : Nat) (read : Option Entry) (s : State) : State :=
  match s.fetching qn with
  | none => s
  | some q =>
    if !q.wrongLap || q.failedRead != .none then s
    else
      match read with
      | none => s.modQueue qn (fun q => { q with failedRead := .lap })
      | some e => s.takeReread qn q e

/-- HOST_DMA (R286): its address is the handle index of the queue or ring, its generation that of its handle. -/
def State.raiseDma (s : State) (gen : BitVec 8) (index : Nat) : State := s.raise 0x1002 0x005 2 gen.toNat index

/-- The retry of a failed submission-ring read (R286); a second failure stops the ring and its queue. -/
def retrySubmission (qn : Nat) (read : Option (List Entry)) (s : State) : State :=
  match s.fetching qn with
  | none => s
  | some q =>
    match q.failedRead, read with
    | .none, _ => s
    | _, none => (s.haltQueue qn).raiseDma (s.queueGenOf qn) qn
    | .window, some es => s.takeRead qn q es
    | .lap, some es => match es with
      | [] => s
      | e :: _ => s.takeReread qn q e

/-- A reserved bit of a submission entry is set: of the entry itself, or of its parameters (R299, R313). -/
def reservedSet (row : CmdRow) (e : Entry) : Bool :=
  fld e 510 497 != 0 || fld e 495 448 != 0 || paramReserved row (BitVec.ofNat 384 (fld e 447 64))

/-- The row of a well-formed entry (R299). -/
def wellFormedRow (e : Entry) : Option CmdRow :=
  match rowOf (fld e 15 0) with
  | none => none
  | some r => if fld e 23 16 == r.plen && !reservedSet r e then some r else none

/-- COMMAND_START (R298, R300, R301): the next entry of the window starts, where it may; a malformed one stops the
queue. One with a wrong LAP waits for its re-read. -/
def startNext (qn : Nat) (s : State) : State :=
  match s.fetching qn with
  | none => s
  | some q =>
    match q.fetched with
    | [] => s
    | e :: rest =>
      if q.wrongLap then s
      else
      match wellFormedRow e with
      | none => s.malformed qn q.index
      | some row =>
        if !mayStart s qn q row (bitAt e 496) then s
        else if !placeLeft s q.cq.toNat then s.stallRing q.cq.toNat
        else
          let n := advance q.sqExp q.index q.lap
          ((s.modQueue qn (fun q => { q with fetched := rest, index := n.1, lap := n.2 })).start qn q row q.index
            (BitVec.ofNat 32 (fld e 63 32)) (BitVec.ofNat 384 (fld e 447 64))).takeWindow qn

/-- COMPLETION_WRITE (R301): the oldest decided completion is written, or held on chip while the next entry has
O = 0. -/
def writeNext (cqn : Nat) (s : State) : State :=
  match s.cq cqn with
  | none => s
  | some r =>
    match r.finished with
    | [] => s
    | c :: rest =>
      if !s.hostUp then s
      else if r.held.isEmpty && decide (0 < r.room) then (s.writeComp cqn { r with finished := rest } c).adminSettle
      else s.modCq cqn (fun r => { r with finished := rest, held := r.held ++ [c] })

/-- What a completion ring's read found (R301): `room` entries from the write index on with O = 1. -/
def State.takeCqRoom (s : State) (cqn : Nat) (r : CRing) (room : Nat) : State :=
  ((State.writeHeld r.held.length cqn (s.modCq cqn (fun r => { r with
    room := max r.room (min room (2 ^ r.exp.toNat)), reads := .live }))).resumeRing cqn).adminSettle

/-- CQ_POLL (R301), or its read failed (R286). -/
def pollCq (cqn : Nat) (room : Option Nat) (s : State) : State :=
  match s.cq cqn with
  | none => s
  | some r =>
    if !s.hostUp || r.reads != .live then s
    else match room with
      | none => s.modCq cqn (fun r => { r with reads := .retry })
      | some k => s.takeCqRoom cqn r k

/-- What an event ring's read found (R303): `room` entries from the write index on with O = 1. -/
def State.takeEventRoom (s : State) (qn : Nat) (r : EvRing) (room : Nat) : State :=
  (s.modQueue qn (fun q => { q with
    events := some { r with room := max r.room (min room (2 ^ r.exp.toNat)), reads := .live } })).deliver qn

/-- The reads of a queue's event ring stand otherwise. -/
def State.eventReads (s : State) (qn : Nat) (r : EvRing) (x : RingReads) : State :=
  s.modQueue qn (fun q => { q with events := some { r with reads := x } })

/-- EVENT_RING_POLL (R303), or its read failed (R286). -/
def pollEvents (qn : Nat) (room : Option Nat) (s : State) : State :=
  match s.eventRing qn with
  | none => s
  | some r =>
    if !s.hostUp || r.reads != .live then s
    else match room with
      | none => s.eventReads qn r .retry
      | some k => s.takeEventRoom qn r k

/-- A message's final class and source with its generation (Table 14.1). -/
def msgClass (m : BitVec 128) : Nat := fld m 29 27
def msgSource (m : BitVec 128) : Nat := fld m 15 0
def msgGen (m : BitVec 128) : Nat := fld m 47 40
def msgKind (m : BitVec 128) : Nat := fld m 39 30

/-- The oldest `returned` FAULT records are found with O = 1; the NOTE and CORRECTED faults among them are acknowledged (R304,
R348). -/
def State.takeRecords (s : State) (returned : Nat) : State :=
  { s with faults := { s.faults with
      posted := s.faults.posted.drop returned
      implicit := (s.faults.posted.take returned).foldl (fun l m => if msgClass m < 2 then l.erase m else l) s.faults.implicit } }

/-- FAULT_RECORD_POLL (R304, R348), or its read of the admin event ring failed (R286). -/
def pollFaultRecords (returned : Option Nat) (s : State) : State :=
  match s.eventRing 0 with
  | none => s
  | some r =>
    if !s.hostUp || r.reads != .live then s
    else match returned with
      | none => s.eventReads 0 r .retry
      | some n => s.takeRecords n

/-- The retry of a failed completion-ring read: a second failure stops the ring and every queue bound to it (R286). What the
device has read of the ring with O = 1 it still writes (assumption 77). -/
def retryCompletion (cqn : Nat) (room : Option Nat) (s : State) : State :=
  match s.cq cqn with
  | none => s
  | some r =>
    if !s.hostUp || r.reads != .retry then s
    else match room with
      | some k => s.takeCqRoom cqn r k
      | none =>
        (foldNats ((s.host.queues.filter (fun e => e.2.cq.toNat = cqn && e.2.state == .running)).map (·.1)) State.haltQueue
          (s.modCq cqn (fun r => { r with reads := .stopped }))).raiseDma (s.cqGenOf cqn) (65536 + cqn)

/-- The retry of a failed read of a queue's event ring: a second failure stops the ring and its queue (R286). -/
def retryEvent (qn : Nat) (found : Option (EvRing → State → State)) (s : State) : State :=
  match s.eventRing qn with
  | none => s
  | some r =>
    if !s.hostUp || r.reads != .retry then s
    else match found with
      | some f => f r s
      | none =>
        let s1 := s.eventReads qn r .stopped
        (if (s.queue qn).any (fun q => q.state == .running) then s1.haltQueue qn else s1).raiseDma (s.queueGenOf qn) qn

def execQueuePoll (queue : QueueNo) (read : Option (List Entry)) (s : State) : Host.Outcome State Fault Refusal :=
  .next (pollQueue queue.toNat read s)

def execLapReread (queue : QueueNo) (read : Option Entry) (s : State) : Host.Outcome State Fault Refusal :=
  .next (rereadLap queue.toNat read s)

def execCommandStart (queue : QueueNo) (s : State) : Host.Outcome State Fault Refusal :=
  .next (startNext queue.toNat s)

def execCompletionWrite (cq : QueueNo) (s : State) : Host.Outcome State Fault Refusal :=
  .next (writeNext cq.toNat s)

def execCqPoll (cq : QueueNo) (room : Option Nat) (s : State) : Host.Outcome State Fault Refusal :=
  .next (pollCq cq.toNat room s)

def execEventRingPoll (queue : QueueNo) (room : Option Nat) (s : State) : Host.Outcome State Fault Refusal :=
  .next (pollEvents queue.toNat room s)

def execFaultRecordPoll (returned : Option Nat) (s : State) : Host.Outcome State Fault Refusal :=
  .next (pollFaultRecords returned s)

/-- IRQ_HOLDOFF_END: a message owed during a ring's holdoff goes at its end. -/
def endHoldoff (ring : RingId) (s : State) : State :=
  match ring with
  | .completion n =>
    match s.cq n.toNat with
    | none => s
    | some r =>
      let i := Irq.expired s.tbNs r.irq
      let s1 := s.modCq n.toNat (fun r => { r with irq := i.1 })
      if i.2 then s1.msix r.irq.vector else s1
  | .event n =>
    match s.eventRing n.toNat with
    | none => s
    | some r =>
      let i := Irq.expired s.tbNs r.irq
      let s1 := s.modQueue n.toNat (fun q => { q with events := some { r with irq := i.1 } })
      if i.2 then s1.msix r.irq.vector else s1
  | .notice q =>
    let r := s.strainer q.toNat
    let i := Irq.expired s.tbNs r.irq
    let s1 := s.modStrainer q.toNat (fun r => { r with irq := i.1 })
    if i.2 then s1.msix r.irq.vector else s1

def execIrqHoldoffEnd (ring : RingId) (s : State) : Host.Outcome State Fault Refusal := .next (endHoldoff ring s)

/-! ### Admin registers (Table 11.8) -/

/-- A discarded register write outside the time-base region: REG_REJECT (Table 14.4). -/
def State.regReject (s : State) (source offset : Nat) : State := s.raise source 0x001 0 1 offset

/-- A field of ADMIN_CTL or a base register out of range for EN = 1. -/
def badAdmin (s : State) (v : BitVec 64) : Bool :=
  badPoll (fld v 62 33) || badExp (fld v 32 28) || badExp (fld v 27 23) || !inRange (fld v 22 18) 6 16 ||
  badBase s.host.adminSq || badBase s.host.adminCq || badBase s.host.adminEq

/-- EN = 1 with RUNNING at 0: queue 0 and its rings start at index 0, lap 1, HALTED is cleared. What waits for room on the admin
event ring goes on waiting: held events, what is owed of dropped ones, and ring 0's own pending records (R303). -/
def State.adminStart (s : State) (v : BitVec 64) : State :=
  let old := ((s.queue 0).bind (·.events)).getD EvRing.admin
  let ring := (s.cq 0).getD CRing.admin
  let ev := { EvRing.create s.host.adminEq (BitVec.ofNat 5 (fld v 22 18)) (BitVec.ofNat 8 (fld v 9 2)) true with
    held := old.held, dropped := old.dropped }
  let q := Queue.create 0 s.host.adminSq (BitVec.ofNat 5 (fld v 32 28)) (BitVec.ofNat 30 (fld v 62 33)) 0 (some ev) s.tbNs
  let c := CRing.create s.host.adminCq (BitVec.ofNat 5 (fld v 27 23)) (BitVec.ofNat 30 (fld v 62 33))
    (BitVec.ofNat 8 (fld v 17 10)) true 0
  let c := { c with oweStall := ring.oweStall, oweResume := ring.oweResume }
  State.deliver { s with host := { s.host with
      adminCtl := setFld v 1 0 0, adminRunning := true, adminHalted := false
      queues := Map.ins s.host.queues 0 q, cqs := Map.ins s.host.cqs 0 c } } 0

/-- A write of ADMIN_CTL, its lower half latched. -/
def applyAdminCtl (v : BitVec 64) (s : State) : State :=
  let en := bitAt v 63
  if s.host.adminRunning then
    if en then (if bitAt s.host.adminCtl 63 then s else s.regReject 0x1001 0x7018)
    else State.adminSettle (State.modQueue { s with host := { s.host with adminCtl := setFld s.host.adminCtl 63 63 0 } } 0
      (fun q => { q with state := .stopped, fetched := [], windowed := false, failedRead := .none }))
  else if en then (if badAdmin s v then s.regReject 0x1001 0x7018 else s.adminStart v)
  else { s with host := { s.host with adminCtl := setFld v 1 0 0 } }

def writeAdminCtl (v : BitVec 64) (s : State) : State := if s.hostUp then applyAdminCtl v (s.latchLow 0x7018 v) else s

def execAdminEnable (value : BitVec 64) (s : State) : Host.Outcome State Fault Refusal :=
  .next (writeAdminCtl (setFld value 63 63 1) s)

def execAdminDisable (value : BitVec 64) (s : State) : Host.Outcome State Fault Refusal :=
  .next (writeAdminCtl (setFld value 63 63 0) s)

/-! ### Queue commands (R294, Table 11.9) -/

/-- The counters of a queue that start at 0 with it (R312, R331): the commands', the polls', LEARN_EVENT_DROP and
SAMPLE_EVENT_DROP. FLOW_EVENT_DROP and TIME_EVENT_DROP are cleared only by power-on reset (R175, R258). -/
def State.clearQueueCounters (s : State) (n : Nat) : State :=
  ((s.clearSlots (0x100 + n) 0 8).clearSlots (0x100 + n) 11 15)

/-- QUEUE_CREATE. -/
def queueCreateBody (sqBase eqBase : Addr) (cq : Handle) (pollNs : BitVec 30) (domain : BitVec 2) (sqExp eqExp : BitVec 5)
    (eqVec : BitVec 8) (eqIrq : Bool) : Body :=
  { bad := fun _ => badBase sqBase || badPoll pollNs.toNat || badExp sqExp.toNat ||
      (eqExp != 0 && (badExp eqExp.toNat || badBase eqBase))
    act := fun s =>
      match Map.lowestFree s.host.queues 257 0 with
      | none => .fail .noRoom s
      | some n =>
        if fld cq 19 0 == 65536 then .fail .inUse s
        else
          let ev := if eqExp = 0 then none else some (EvRing.create eqBase eqExp eqVec eqIrq)
          let q := Queue.create domain sqBase sqExp pollNs (BitVec.ofNat 9 (fld cq 19 0 - 65536)) ev s.tbNs
          let s1 := s.clearQueueCounters n
          .ok (queueHandle s n).toNat { s1 with host := { s1.host with queues := Map.ins s1.host.queues n q } } }

def execQueueCreate (sub : Sub) (sqBase eqBase : Addr) (cq : Handle) (pollNs : BitVec 30) (domain : BitVec 2)
    (sqExp eqExp : BitVec 5) (eqVec : BitVec 8) (eqIrq : BitVec 1) (s : State) : Host.Outcome State Fault Refusal :=
  .next (runCommand Cat.queueCreate sub
    (pack 384 [(255, 192, sqBase.toNat), (191, 128, eqBase.toNat), (127, 96, cq.toNat), (95, 66, pollNs.toNat),
      (65, 64, domain.toNat), (63, 59, sqExp.toNat), (58, 54, eqExp.toNat), (53, 46, eqVec.toNat), (45, 45, eqIrq.toNat)])
    (queueCreateBody sqBase eqBase cq pollNs domain sqExp eqExp eqVec (eqIrq == 1)) s)

/-- A command started with a generation that a destroy retires, and names its handle (R318). -/
def Exec.names (x : Exec) (h : Handle) : Bool :=
  match rowOf x.opcode.toNat with
  | none => false
  | some r => !retires x.opcode.toNat && !x.stale && anyHandle r x.param (fun k p => hOwner k p == h)

/-- Another command in execution, one that a host-interface reset has left without a queue among them, names a handle that a
destroy retires (R318). -/
def namedByOthers (s : State) (h : Handle) : Bool :=
  s.host.queues.any (fun e => e.2.inExec.any (fun x => x.names h)) || s.host.orphans.any (fun o => o.exec.names h)

/-- Some completion of a queue is not yet written. -/
def owesCompletions (s : State) (qn : Nat) (q : Queue) : Bool :=
  (s.cq q.cq.toNat).any (fun c => (c.finished ++ c.held).any (fun x => x.queue.toNat == qn))

/-- Held events of a destroyed queue's ring go to the admin event ring (R304). -/
def State.moveHeld (s : State) (r : Option EvRing) : State :=
  match r, s.eventRing 0 with
  | some old, some adm =>
    (s.modQueue 0 (fun q => { q with events := some { adm with held := adm.held ++ old.held } })).deliver 0
  | _, _ => s

/-- A queue is gone: its generation increments, its page reads 0 (R291, R292, R294, R334). -/
def State.dropQueue (s : State) (n : Nat) : State :=
  let ev := (s.queue n).bind (·.events)
  let s1 := s.clearQueueCounters n
  State.moveHeld { s1 with host := { s1.host with
      queues := Map.del s1.host.queues n
      queueGen := Map.ins s1.host.queueGen n (nextGen (s.queueGenOf n))
      pageUser := s1.host.pageUser.filter (· ≠ 0x100 + n) } } ev

/-- A completion ring is gone. -/
def State.dropCq (s : State) (n : Nat) : State :=
  let s1 := s.clearSlots (0x100 + n) 16 17
  { s1 with host := { s1.host with
      cqs := Map.del s1.host.cqs n
      cqGen := Map.ins s1.host.cqGen n (nextGen (s.cqGenOf n))
      pageUser := s1.host.pageUser.filter (· ≠ 0x100 + n) } }

/-- The held events of a queue find places in the admin event ring's store of 64 (R303, R304). -/
def heldFits (s : State) (q : Queue) : Bool :=
  match q.events, s.eventRing 0 with
  | some r, some adm => r.held.isEmpty || decide (r.held.length + adm.held.length ≤ 64)
  | _, _ => true

/-- QUEUE_DESTROY: the queue stops fetching at once; it is gone once its commands have written their completions, and its held
events have a place on the admin event ring (assumption 78). -/
def queueDestroyAct (n : Nat) (h : Handle) (s : State) : Res :=
  match s.queue n with
  | none => .fail .notFound s
  | some q =>
    if !q.inExec.isEmpty || owesCompletions s n q || namedByOthers s h || !heldFits s q then
      .wait (s.modQueue n (fun q => { q with state := .destroying, fetched := [], windowed := false, failedRead := .none }))
    else .ok 0 (s.dropQueue n)

def execQueueDestroy (sub : Sub) (queue : Handle) (s : State) : Host.Outcome State Fault Refusal :=
  .next (runCommand Cat.queueDestroy sub (pack 384 [(31, 0, queue.toNat)])
    { bad := fun _ => fld queue 19 0 == 0
      act := queueDestroyAct (fld queue 19 0) queue
      again := queueDestroyAct (fld queue 19 0) queue } s)

/-- CQ_CREATE. -/
def cqCreateBody (base : Addr) (pollNs : BitVec 30) (exp : BitVec 5) (vec : BitVec 8) (irq : Bool) (coalNs : Nat) : Body :=
  { bad := fun _ => badBase base || badPoll pollNs.toNat || badExp exp.toNat
    act := fun s =>
      match Map.lowestFree s.host.cqs 257 0 with
      | none => .fail .noRoom s
      | some n =>
        let s1 := s.clearSlots (0x100 + n) 16 17
        .ok (cqHandle s n).toNat { s1 with host := { s1.host with
          cqs := Map.ins s1.host.cqs n (CRing.create base exp pollNs vec irq coalNs) } } }

def execCqCreate (sub : Sub) (base : Addr) (pollNs : BitVec 30) (exp : BitVec 5) (vec : BitVec 8) (irq : BitVec 1)
    (coalNs : BitVec 16) (s : State) : Host.Outcome State Fault Refusal :=
  .next (runCommand Cat.cqCreate sub
    (pack 384 [(127, 64, base.toNat), (63, 34, pollNs.toNat), (33, 29, exp.toNat), (28, 21, vec.toNat), (20, 20, irq.toNat),
      (19, 4, coalNs.toNat)])
    (cqCreateBody base pollNs exp vec (irq == 1) coalNs.toNat) s)

/-- CQ_DESTROY: IN_USE for ring 0 and for a ring some queue is bound to. -/
def cqDestroyAct (n : Nat) (h : Handle) (s : State) : Res :=
  if n == 0 || s.host.queues.any (fun e => e.2.cq.toNat == n) then .fail .inUse s
  else if namedByOthers s h then .wait s
  else .ok 0 (s.dropCq n)

def execCqDestroy (sub : Sub) (cq : Handle) (s : State) : Host.Outcome State Fault Refusal :=
  .next (runCommand Cat.cqDestroy sub (pack 384 [(31, 0, cq.toNat)])
    { act := cqDestroyAct (fld cq 19 0 - 65536) cq
      again := orBadMode (cqDestroyAct (fld cq 19 0 - 65536) cq) } s)

def execProtSet (sub : Sub) (value : BitVec 32) (domain : BitVec 2) (s : State) : Host.Outcome State Fault Refusal :=
  .next (runCommand Cat.protSet sub (pack 384 [(33, 32, domain.toNat), (31, 0, value.toNat)])
    { bad := fun _ => domain == 0 || fld value 29 24 != 0
      act := fun s => .ok 0 { s with host := { s.host with prot := Map.ins s.host.prot domain.toNat value } } } s)

/-- STATE of Table 11.10. What it reads for a queue 0 that EN = 0 has stopped is not stated: a free value. -/
def queueStateCode (s : State) (q : Queue) : Nat :=
  match q.state with
  | .halted => 2
  | .destroying => 3
  | .running => if (s.cq q.cq.toNat).any (fun c => c.stalledAt.isSome) then 1 else 0
  | .stopped => (s.free 2).toNat

/-- STALL_NS: the stalls that have ended, and the one in progress. -/
def stallOf (s : State) (q : Queue) : Nat :=
  match (s.cq q.cq.toNat).bind (·.stalledAt) with
  | none => q.stallNs
  | some t => q.stallNs + (s.tbNs - max t q.createdNs)

/-- The result of Table 11.10. -/
def queueStatus (s : State) (q : Queue) : BitVec 384 :=
  pack 384 [(127, 96, (cqHandle s q.cq.toNat).toNat), (95, 64, sat 32 (stallOf s q / 1000)),
    (63, 56, match s.cq q.cq.toNat with
      | some c => c.held.length
      | none => 0),
    (55, 48, q.inExec.length), (47, 40, q.lap.toNat), (39, 38, queueStateCode s q), (37, 36, q.domain.toNat),
    (15, 0, q.index.toNat)]

def execQueueStatusGet (sub : Sub) (queue : Handle) (s : State) : Host.Outcome State Fault Refusal :=
  .next (runCommand Cat.queueStatusGet sub (pack 384 [(31, 0, queue.toNat)])
    { act := fun s =>
        match s.queue (fld queue 19 0) with
        | none => .fail .notFound s
        | some q => .ok (queueStatus s q) (if q.state == .stopped then s.drawn else s) } s)

def execNop (sub : Sub) (s : State) : Host.Outcome State Fault Refusal :=
  .next (runCommand Cat.nop sub 0 { act := fun s => .ok 0 s } s)

end Sys2Proof.Machine
end

