-- ==== Sys2Proof/Machine/Collect.lean ====
section
/-! DEFINITION. The fault collector (R346 to R357): windows, escalation, log, posting and the fault commands. What a
promotion retires and what a final class does to the mode stand in Modes.lean. -/

namespace Sys2Proof.Machine

/-- Kinds of Table 14.4: code, classes raised, WINDOW in ms, THRESH. -/
def faultKinds : List (Nat × List Nat × Nat × Nat) :=
  [(0x001, [0], 0, 0), (0x002, [0], 0, 0), (0x003, [0], 0, 0), (0x004, [0], 0, 0), (0x005, [2], 0, 0), (0x006, [3], 0, 0),
   (0x007, [0], 0, 0), (0x008, [3], 0, 0), (0x009, [4], 0, 0), (0x00A, [4], 0, 0), (0x00B, [3], 0, 0), (0x00C, [3], 0, 0),
   (0x00D, [0], 0, 0), (0x020, [0], 0, 0), (0x021, [0], 0, 0), (0x022, [1], 10000, 3), (0x028, [0], 0, 0), (0x029, [3], 0, 0),
   (0x02A, [2], 0, 0), (0x02B, [2], 0, 0), (0x040, [0], 0, 0), (0x041, [1], 60000, 4), (0x042, [0], 0, 0), (0x043, [0], 0, 0),
   (0x048, [1], 1000, 100), (0x049, [2], 0, 0), (0x04A, [3], 0, 0)] ++
  [(0x060, [1, 2], 1000, 4), (0x061, [0], 0, 0), (0x062, [0], 0, 0), (0x063, [1, 2], 1000, 4), (0x064, [0], 0, 0),
   (0x065, [0], 0, 0), (0x070, [0], 0, 0), (0x071, [2], 0, 0), (0x072, [1], 1000, 8), (0x080, [1], 1000, 8), (0x081, [2], 0, 0),
   (0x082, [0], 0, 0), (0x083, [2, 3], 0, 0), (0x084, [1], 1000, 8), (0x085, [2], 0, 0), (0x0A0, [0], 10000, 4),
   (0x0A1, [2], 0, 0), (0x0A2, [0], 0, 0), (0x0A3, [3], 0, 0)]

/-- The row of a kind. -/
def kindRow (k : Nat) : Option (Nat × List Nat × Nat × Nat) := faultKinds.find? (fun r => r.1 == k)

/-- A kind that is raised as NOTE or CORRECTED. -/
def windowedKind (k : Nat) : Bool :=
  match kindRow k with
  | none => false
  | some r => r.2.1.any (fun c => decide (c < 2))

/-- WINDOW in ms and THRESH of a kind: as FAULT_WINDOW_SET left them, else the defaults of Table 14.4. -/
def windowOf (s : State) (k : Nat) : Nat × Nat :=
  match Map.find s.faults.settings k with
  | some v => (fld v 23 8, fld v 7 0)
  | none => match kindRow k with
    | some r => (r.2.2.1, r.2.2.2)
    | none => (0, 0)

/-- ADDRESS bits that a kind uses (Table 14.4, R133, R366, R368, R381, R382). -/
def addrBits (k : Nat) : List (Nat × Nat) :=
  if k = 0x001 ∨ k = 0x002 ∨ k = 0x020 ∨ k = 0x00C then [(23, 0)]
  else if k = 0x004 ∨ k = 0x008 ∨ k = 0x021 ∨ k = 0x028 ∨ k = 0x02A ∨ k = 0x064 ∨ k = 0x070 then [(1, 0)]
  else if k = 0x005 then [(19, 0)]
  else if k = 0x006 then [(24, 0)]
  else if k = 0x007 then [(8, 0)]
  else if k = 0x00B ∨ k = 0x062 then [(15, 0)]
  else if k = 0x022 ∨ k = 0x0A2 ∨ k = 0x0A3 then [(3, 0)]
  else if k = 0x029 ∨ k = 0x02B ∨ k = 0x0A1 then [(47, 0)]
  else if k = 0x040 ∨ k = 0x041 ∨ k = 0x042 ∨ k = 0x082 then [(9, 0)]
  else if k = 0x043 then [(9, 0), (18, 16)]
  else if k = 0x048 ∨ k = 0x049 then [(7, 0)]
  else if k = 0x060 then [(47, 40), (32, 32), (13, 0)]
  else if k = 0x061 then [(47, 40), (15, 0)]
  else if k = 0x063 then [(47, 36), (31, 0)]
  else if k = 0x065 then [(21, 0)]
  else if k = 0x071 ∨ k = 0x072 ∨ k = 0x084 ∨ k = 0x085 then [(25, 0)]
  else if k = 0x080 ∨ k = 0x081 then [(16, 0)]
  else if k = 0x083 then [(2, 0)]
  else if k = 0x0A0 then [(47, 45), (44, 20), (17, 8)]
  else []

/-- An ADDRESS whose bits that the kind does not use are 0 (R345). -/
def addrFits (k a : Nat) : Bool :=
  ((addrBits k).map (fun r => a / 2 ^ r.2 % 2 ^ (r.1 + 1 - r.2) * 2 ^ r.2)).sum == a

/-- The block that owns the region of an offset (Table 14.6). -/
def regionSource (o : Nat) : Nat :=
  if inRange o 0x1000 0x4FFF then 0x1000
  else if inRange o 0x5000 0x5FFF then 0x1003
  else if inRange o 0x6000 0x6FFF then 0x1004
  else if inRange o 0x8000 0x83FF then 0x1010 + (o - 0x8000) / 0x100
  else if inRange o 0x9040 0x9047 || inRange o 0x9050 0x905F then 0x1005
  else if inRange o 0xC000 0xFFFF then 0x1006
  else if inRange o 0x400000 0x43FFFF then 0x2009 + 0x100 * ((o - 0x400000) / 0x10000)
  else if inRange o 0x800000 0xFFFFFF then
    let sl := (o - 0x800000) / 0x80000
    let k := o % 0x80000
    if k < 0x10000 || inRange k 0x31000 0x311FF then 0x3003 + 0x100 * sl else 0x3000 + 0x100 * sl
  else 0x1001

/-- The copy of a table whose parity failed: its source by table ID, copy and location (Table 14.6). -/
def tableSource (src table copy : Nat) : Bool :=
  if table = 1 then src == 0x200B + 0x100 * copy
  else if table = 2 ∨ table = 3 then src == 0x200C + 0x100 * copy
  else if table = 4 then inRange src (0x2010 + 0x100 * copy) (0x2013 + 0x100 * copy)
  else if inRange table 0x11 0x14 then src == 0x200D + 0x100 * copy
  else (table == 0x10 || inRange table 0x15 0x1A) && src == 0x3004 + 0x100 * copy

/-- SOURCE is the unit that raises the kind with an ADDRESS (Table 14.6). -/
def sourceFits (k src a : Nat) : Bool :=
  let area := src / 4096
  let b := src % 256
  if k = 0x001 ∨ k = 0x002 then src == regionSource a
  else if k = 0x020 ∨ k = 0x021 then src == 0x1004
  else if k = 0x003 then src == 0x1003
  else if k = 0x004 ∨ k = 0x005 ∨ k = 0x006 then src == 0x1002
  else if k = 0x007 ∨ k = 0x008 ∨ k = 0x062 ∨ k = 0x00C then src == 0x1001
  else if k = 0x00B then src == (if a % 256 = 4 then 0x1008 else 0x1001)
  else if k = 0x009 ∨ k = 0x00D then src == 0x1000
  else if k = 0x00A then src == 0x1008
  else if k = 0x022 then src == 0x3002 + 0x100 * a
  else if inRange k 0x028 0x02B then src == 0x1005
  else if k = 0x040 ∨ k = 0x041 then src == 0x4000 + 0x100 * (a / 128) + a % 128
  else if k = 0x042 ∨ k = 0x043 then src == 0x3003 + 0x100 * (a % 1024 / 64)
  else if k = 0x082 then src == 0x3000 + 0x100 * (a / 64)
  else if inRange k 0x048 0x04A then (area == 2 && inRange b 0x20 0x23) || (area == 4 && b == 0x81)
  else if k = 0x060 ∨ k = 0x061 then (area == 3 && inRange b 0x10 0x33 && a / 2 ^ 40 == b - 0x10) || (area == 2 && b == 0x14 && a / 2 ^ 40 == 0)
  else if k = 0x063 then tableSource src (a / 2 ^ 40) (a / 2 ^ 36 % 16)
  else if k = 0x064 then src == 0x200B + 0x100 * a
  else if k = 0x065 then area == 2 && b == 0x0A
  else if k = 0x070 then src == 0x2015 + 0x100 * a
  else if k = 0x071 ∨ k = 0x072 then area == 2 && inRange b 0x10 0x13
  else if k = 0x080 ∨ k = 0x081 then area == 3 && (b == 0x40 + a / 1536 || b == 0x80 + a / 1024) && inRange b 0x40 0x8F
  else if k = 0x083 then area == 2 && b == a
  else if k = 0x084 ∨ k = 0x085 then area == 2 && b == 9
  else if k = 0x0A0 then src == 0x1007
  else if k = 0x0A2 ∨ k = 0x0A3 then src == 0x1009
  else k == 0x0A1

/-- The window of a (SOURCE, KIND, GEN). -/
def FWindow.of (m : BitVec 128) (w : FWindow) : Bool :=
  w.source.toNat == msgSource m && w.kind.toNat == msgKind m && w.gen.toNat == msgGen m

/-- Windows that are open now (R347). -/
def openWindows (s : State) : List FWindow := s.faults.windows.filter (fun w => decide (s.tbNs < w.endNs))

/-- The window of a list that ends soonest. -/
def soonest : List FWindow → Option FWindow
  | [] => none
  | w :: ws =>
    match soonest ws with
    | none => some w
    | some v => if v.endNs < w.endNs then some v else some w

/-- The window step of R347: the state with the occurrence counted, and whether it is promoted. -/
def countOccurrence (s : State) (m : BitVec 128) : State × Bool :=
  let wt := windowOf s (msgKind m)
  let ws := openWindows s
  match ws.find? (FWindow.of m) with
  | some w =>
    if wt.2 < w.count + 1 then
      ({ s with faults := { s.faults with windows := ws.filter (fun x => !FWindow.of m x) } }, true)
    else
      ({ s with faults := { s.faults with
          windows := ws.map (fun x => if FWindow.of m x then { x with count := x.count + 1 } else x) } }, false)
  | none =>
    let w : FWindow := { source := BitVec.ofNat 16 (msgSource m), kind := BitVec.ofNat 10 (msgKind m)
                         gen := BitVec.ofNat 8 (msgGen m), count := 1, endNs := s.tbNs + 1000000 * wt.1 }
    if ws.length < 1024 then ({ s with faults := { s.faults with windows := ws ++ [w] } }, false)
    else
      let ws1 := match soonest ws with
        | some v => ws.erase v
        | none => ws
      let quiet := match s.faults.evictNs with
        | some t => decide (s.tbNs < t + 1000000000)
        | none => false
      let s1 : State := { s with faults := { s.faults with
        windows := ws1 ++ [w], windowEvict := s.faults.windowEvict + 1 } }
      if quiet then (s1, false)
      else (({ s1 with faults := { s1.faults with evictNs := some s.tbNs } } : State).raise 0x1000 0x00D 0 1 0, false)

/-- An unacknowledged fault of a class with a source and a generation. -/
def unackedAs (l : List (BitVec 128)) (cls : Nat) (m : BitVec 128) : Bool :=
  l.any (fun x => msgClass x == cls && msgSource x == msgSource m && msgGen x == msgGen m)

/-- One of the escalation conditions of R349 holds of a message at a class. -/
def escalates (s : State) (m : BitVec 128) (cls : Nat) : Bool :=
  (cls == 1 && unackedAs s.faults.implicit 1 m) ||
  (cls == 2 && (unackedAs s.faults.unack 2 m || decide (63 ≤ s.faults.unack.length))) ||
  (cls == 3 && s.faults.unack.any (fun x => msgClass x == 3))

/-- The class a message ends at: one level at a time while a condition holds (R349). -/
def finalClass (s : State) (m : BitVec 128) : Nat → Nat → Nat
  | 0, cls => cls
  | n + 1, cls => if escalates s m cls then finalClass s m n (cls + 1) else cls

/-- The log and the counters of the fault window (Table 14.5). -/
def State.logFault (s : State) (m : BitVec 128) : State :=
  let h := s.faults.logHead.toNat
  let wrap := h = 895
  let c := msgClass m
  { s with faults := { s.faults with
      log := Map.put 0 s.faults.log h m
      logHead := if wrap then 0 else s.faults.logHead + 1
      logWraps := if wrap && s.faults.logWraps ≠ 0xFFFF then s.faults.logWraps + 1 else s.faults.logWraps
      counts := Map.upd 0 s.faults.counts c (· + 1)
      promotions := s.faults.promotions + (if bitAt m 17 then 1 else 0)
      escalations := s.faults.escalations + (if bitAt m 16 then 1 else 0) } }

/-- NOTE and CORRECTED messages that wait to be posted. -/
def waitingSmall (s : State) : Nat := s.faults.waiting.countP (fun m => decide (msgClass m < 2))

/-- A decided message is posted as a FAULT event, or waits, or is counted in FAULT_LOST (R348, R355). In LOCKOUT nothing
is posted. -/
def State.postFault (s : State) (m : BitVec 128) : State :=
  let c := msgClass m
  if s.mode = .lockout ∨ 4 ≤ c then s
  else if c < 2 then
    if 960 ≤ waitingSmall s then { s with faults := { s.faults with lost := s.faults.lost + 1 } }
    else State.deliver { s with faults := { s.faults with
        waiting := s.faults.waiting ++ [m], implicit := s.faults.implicit ++ [m] } } 0
  else State.deliver { s with faults := { s.faults with waiting := s.faults.waiting ++ [m] } } 0

/-- `procedure collect` up to the action on the mode (R346 to R349): the state, the message in its final form, and whether
its window promoted it. -/
def State.judge (s : State) (sent : BitVec 128) : State × BitVec 128 × Bool :=
  let cls := msgClass sent
  let m0 := setFld sent 26 24 cls
  let w := if cls < 2 && decide (0 < (windowOf s (msgKind sent)).2) then countOccurrence s m0 else (s, false)
  let cls1 := if w.2 then 2 else cls
  let m1 := if w.2 then setFld m0 17 17 1 else m0
  let cls2 := finalClass s m1 4 cls1
  let m2 := setFld (if cls2 = cls1 then m1 else setFld m1 16 16 1) 29 27 cls2
  let s1 := w.1.logFault m2
  let full := decide (64 ≤ s1.faults.unack.length)
  let s2 : State := if (cls2 = 2 || cls2 = 3) && !full then
      { s1 with faults := { s1.faults with unack := s1.faults.unack ++ [m2] } }
    else s1
  (s2, m2, w.2)

/-! ### Commands and rows of the collector -/

/-- A block of the hub, and of a quadrant's core die, that is on the member (Table 14.2): a Strainer is there with its quadrant, the
HBM controller, the spill controller and Infuser with the quadrant's HBM, an adapter with the core die that it leads to. -/
def hubBlock (s : State) (b : Nat) : Bool := decide (b ≤ 9) || (inRange b 0x10 0x13 && quadThere s (b - 0x10))
def quadBlock (s : State) (q b : Nat) : Bool :=
  if inRange b 8 9 || inRange b 0x10 0x15 then hbmThere s q
  else if inRange b 0x20 0x22 then quadThere s q && decide (b - 0x20 + 1 < (quadsThere s).length)
  else quadThere s q && (decide (b ≤ 5) || inRange b 0x0A 0x0D || b == 0x23)

/-- A source that is absent on the member, or that Table 14.2 does not list (R343). -/
def sourceAbsent (s : State) (src : Nat) : Bool :=
  let i := src / 256 % 16
  let b := src % 256
  match src / 4096 with
  | 1 => !(i == 0 && hubBlock s b)
  | 2 => !quadBlock s i b
  | 3 => !(sliceThere s i && (decide (b ≤ 4) || inRange b 0x10 0x33 || inRange b 0x40 0x8F))
  | 4 => !(decide (i < 8) && sliceThere s (2 * i) && decide (b ≤ 0x81))
  | 5 => !(hbmThere s i && decide (b ≤ 0x20))
  | _ => true

/-- What makes FAULT_INJECT complete with BAD_PARAM in factory test (R329). -/
def badInject (s : State) (m : BitVec 128) : Bool :=
  (kindRow (msgKind m)).isNone || decide (5 ≤ msgClass m) || !inRange (msgSource m / 4096) 1 5 ||
  sourceAbsent s (msgSource m) || fld m 26 16 != 0

def execFaultInject (sub : Sub) (msg : BitVec 128) (s : State) : Host.Outcome State Fault Refusal :=
  .next (runCommand Cat.faultInject sub (msg.setWidth 384)
    { bad := fun s => badInject s msg
      act := fun s => .ok 0 { s with faults := { s.faults with transit := s.faults.transit ++ [setFld msg 18 18 1] } } } s)

/-- FAULT_ACK (R329, R348, R355): the fault leaves FW_UNACK, and its place where it was still to be posted. -/
def faultAckAct (m : BitVec 128) (s : State) : Res :=
  if s.faults.unack.contains m then
    .ok 0 { s with faults := { s.faults with unack := s.faults.unack.erase m, waiting := s.faults.waiting.erase m } }
  else .fail .notFound s

def execFaultAck (sub : Sub) (msg : BitVec 128) (s : State) : Host.Outcome State Fault Refusal :=
  .next (runCommand Cat.faultAck sub (msg.setWidth 384)
    { bad := fun _ => decide (msgClass msg < 2), act := faultAckAct msg } s)

def execFaultListGet (sub : Sub) (buf : Addr) (bufLen : BitVec 32) (s : State) : Host.Outcome State Fault Refusal :=
  .next (runCommand Cat.faultListGet sub (pack 384 [(63, 0, buf.toNat), (95, 64, bufLen.toNat)])
    { bad := fun s => misaligned buf || decide (bufLen.toNat < 16 * s.faults.unack.length)
      act := fun s => .ok (BitVec.ofNat 384 s.faults.unack.length)
        (s.writeBuf buf (s.faults.unack.flatMap (fun m => leBytes 16 m.toNat))) } s)

/-- FAULT_WINDOW_SET (R347): a new setting closes every open window of the kind. -/
def execFaultWindowSet (sub : Sub) (kind : BitVec 10) (window : BitVec 16) (thresh : BitVec 8) (s : State) :
    Host.Outcome State Fault Refusal :=
  .next (runCommand Cat.faultWindowSet sub (pack 384 [(9, 0, kind.toNat), (31, 16, window.toNat), (39, 32, thresh.toNat)])
    { bad := fun _ => !windowedKind kind.toNat || window == 0
      act := fun s => .ok 0 { s with faults := { s.faults with
        settings := Map.ins s.faults.settings kind.toNat (pack 24 [(23, 8, window.toNat), (7, 0, thresh.toNat)])
        windows := s.faults.windows.filter (fun w => w.kind ≠ kind) } } } s)

/-- FAULT_WINDOW_END (R347): a window whose time has passed closes. -/
def endWindow (source : BitVec 16) (kind : BitVec 10) (gen : BitVec 8) (s : State) : State :=
  { s with faults := { s.faults with windows := s.faults.windows.filter (fun w =>
      !(w.source == source && w.kind == kind && w.gen == gen && decide (w.endNs ≤ s.tbNs))) } }

def execFaultWindowEnd (source : BitVec 16) (kind : BitVec 10) (gen : BitVec 8) (s : State) :
    Host.Outcome State Fault Refusal := .next (endWindow source kind gen s)

/-- FAULT_N is asserted (R35, R353). -/
def State.faultN (s : State) : Bool :=
  (s.mode != .configure && s.mode != .run) || !s.faults.unack.isEmpty

/-- FW_STATUS (Table 14.5). -/
def fwStatus (s : State) : BitVec 64 :=
  pack 64 [(63, 48, s.faults.logWraps.toNat), (47, 32, s.faults.logHead.toNat), (23, 16, s.faults.unack.length),
    (15, 15, (s.faults.unack.any (fun m => msgClass m == 3)).toNat), (7, 7, s.faultN.toNat), (6, 4, modeCode s.dev.prevMode),
    (2, 0, modeCode s.mode)]

/-- FW_STATUS and the nine counters behind it, lowest first (R356). -/
def fwSnapshot (s : State) : BitVec 640 :=
  pack 640 [(63, 0, (fwStatus s).toNat), (127, 64, (Map.val s.faults.counts 0 0).toNat),
    (191, 128, (Map.val s.faults.counts 1 0).toNat), (255, 192, (Map.val s.faults.counts 2 0).toNat),
    (319, 256, (Map.val s.faults.counts 3 0).toNat), (383, 320, (Map.val s.faults.counts 4 0).toNat),
    (447, 384, s.faults.lost.toNat), (511, 448, s.faults.promotions.toNat), (575, 512, s.faults.escalations.toNat),
    (639, 576, s.faults.windowEvict.toNat)]

/-- The nine counters of the fault window as a latched snapshot holds them, lowest first. -/
def counterReads (snap : BitVec 640) : List Out :=
  (List.range 9).map (fun k => .read (BitVec.ofNat 24 (0x1040 + 8 * k)) (BitVec.ofNat 128 (fld snap (127 + 64 * k) (64 + 64 * k))))

/-- FW_STATUS_LATCH (R356): a read of the lowest dword of FW_STATUS, in every mode except RESET, latches FW_STATUS and the counters.
A host that reads on to the last counter dword finds them as latched, and that read ends the latch; whether it does so before
any other row is a free value, since no row carries those reads (assumption 88). -/
def latchFwStatus (s : State) : State :=
  if s.mode != .reset && s.dev.pcieUp then
    let s1 := State.drawn (State.emit s (.read 0x1000 ((fwStatus s).setWidth 128)))
    if s.free 1 = 1 then
      (counterReads (fwSnapshot s)).foldl State.emit { s1 with faults := { s1.faults with latch := none } }
    else { s1 with faults := { s1.faults with latch := some (fwSnapshot s) } }
  else s

/-- The message that the collector takes next (R346): the oldest, and of those that arrive in its hub clock, of 1 ns, the one with
the lowest SOURCE. -/
def State.nextMessage (s : State) : Option (BitVec 128) :=
  match s.faults.transit with
  | [] => none
  | m :: ms => some ((ms.takeWhile (fun x => fld x 127 96 == fld m 127 96)).foldl
      (fun a x => if msgSource x < msgSource a then x else a) m)

def execFwStatusLatch (s : State) : Host.Outcome State Fault Refusal := .next (latchFwStatus s)

end Sys2Proof.Machine
end

