-- ==== Sys2Proof/Machine/Power.lean ====
section
/-! DEFINITION. Power domains, votes and supply monitors (R358 to R370): holdoff, drop, wake, PWR_VOTE, PWR_STATUS_GET
and dips. What a wake clears stands in Retain.lean. -/

namespace Sys2Proof.Machine

/-- STATE (Table 15.3). -/
def domCode (s : State) (d : Nat) : Nat :=
  if !domThere s d then 7
  else match (s.dom d).state with
    | .off => 0 | .waking => 1 | .on => 2 | .holdoff => 3 | .dropping => 4

/-- A domain changes state only outside LOCKOUT and RESET; it enters HOLDOFF or drops only outside SAFE (R370). -/
def State.domLive (s : State) : Bool := s.mode != .lockout && s.mode != .reset

/-- A lane whose group loses power is OFF; it keeps its equaliser values and transmitter settings and trains next from them
(R49). -/
def Lane.powerOff (x : Lane) : Lane := { x with state := .off, adapt := .off, amLock := false, retained := x.trained }

/-- What stops with a domain: a slice's time copy (R241), the lanes of a SerDes group (R49), a quadrant's spill (R192). -/
def State.powerOff (s : State) (d : Nat) : State :=
  if inRange d 4 19 then { s with time := { s.time with sliceOk := setFld s.time.sliceOk (d - 4) (d - 4) 0 } }
  else if inRange d 20 35 then
    { s with lanes := s.lanes.map (fun e => (e.1, if e.1 / 64 = d - 20 then e.2.powerOff else e.2)) }
  else if inRange d 40 43 then
    s.modQuad (d - 40) (fun x => { x with spillReady := false, spillBuilding := false, ring := [], caddy := [] })
  else s

/-- DOMAIN_HOLDOFF_EXPIRY (R363, R364): the drop starts; a canary is drawn for it, but for an HBM stack. -/
def holdoffExpiry (d : Nat) (s : State) : State :=
  let m := s.dom d
  if s.domLive && s.mode != .safe && m.state == .holdoff && decide (m.holdoffEnd ≤ s.tbNs) then
    let t := (s.powerOff d).modDom d (fun m => { m with state := .dropping, cause := none })
    if inRange d 40 43 then t else (t.modDom d (fun m => { m with canary := s.free 32 })).drawn
  else s

/-- DOMAIN_DROP_DONE (R363): OFF, and PARENT's vote ends with an Infuser domain; a vote taken meanwhile starts the wake
at once. -/
def dropDone (d : Nat) (s : State) : State :=
  let m := s.dom d
  if s.domLive && m.state == .dropping then
    match m.votes, m.cause with
    | [], _ =>
      let s1 := s.modDom d (fun m => { m with state := .off })
      if 44 ≤ d && d < 48 then s1.dropVote (d - 4) parentVote else s1
    | _ :: _, some c => s.startWake d c.1 c.2
    | v :: _, none => s.startWake d v s.tbNs
  else s

/-- The wake record of R367. -/
def Dom.record (m : Dom) (now : Nat) (blocks : Nat) (mask : BitVec 32) : Dom :=
  match m.cause with
  | none => { m with readyNs := BitVec.ofNat 64 now, failedBlocks := BitVec.ofNat 8 (sat 8 blocks), failedMask := mask }
  | some c =>
    { m with
      wakeNs := BitVec.ofNat 64 c.2, readyNs := BitVec.ofNat 64 now, wakeClient := c.1.client, wakeKind := c.1.kind
      wakes := if m.wakes = 0xFFFF then m.wakes else m.wakes + 1
      failedBlocks := BitVec.ofNat 8 (sat 8 blocks), failedMask := mask, cause := none }

/-- The host's vote on a domain. -/
def hostVote (s : State) (d : Nat) : Option Vote := (s.dom d).votes.find? (fun v => v.kind == 9)

/-- VOTES as registers and results show them: 0 for the domains that are always on (R359). -/
def votesOf (s : State) (d : Nat) : Nat := if d < 3 then 0 else (s.dom d).votes.length

/-- PWR_VOTE's take and withdraw (R329). A take completes when the domain is ready. -/
def pwrVoteAct (queue : QueueNo) (d : Nat) (take : Bool) (s : State) : Res :=
  if take then
    if (hostVote s d).isSome then .ok (votesOf s d) s
    else
      let s1 := s.takeVote d { kind := 9, client := queueHandle s queue.toNat }
      if s1.domOn d then .ok (votesOf s1 d) s1 else .wait s1
  else match hostVote s d with
    | none => .fail .notFound s
    | some v =>
      let s1 := s.dropVote d v
      .ok (votesOf s1 d) s1

def execPwrVote (sub : Sub) (domain : Handle) (take : BitVec 1) (s : State) : Host.Outcome State Fault Refusal :=
  .next (runCommand Cat.pwrVote sub (pack 384 [(31, 0, domain.toNat), (32, 32, take.toNat)])
    { bad := fun _ => decide (fld domain 19 0 < 3)
      act := pwrVoteAct sub.queue (fld domain 19 0) (take == 1)
      again := fun s => if s.domOn (fld domain 19 0) then .ok (votesOf s (fld domain 19 0)) s else .wait s } s)

/-- PWR_VOTE takes that wait for a domain complete when it reports ready. -/
def State.finishTakes (s : State) (d : Nat) : State :=
  s.host.queues.foldl (fun a q => q.2.inExec.foldl (fun b e =>
    if e.opcode == 0x0A00 && e.begun && fld e.param 19 0 == d then b.finish q.1 e .ok 4 (BitVec.ofNat 384 (votesOf b d))
    else b) a) s

/-- The result of Table 15.6. -/
def pwrStatus (s : State) (d : Nat) : BitVec 384 :=
  let m := s.dom d
  pack 384 [(255, 192, m.readyNs.toNat), (191, 128, m.wakeNs.toNat), (127, 96, m.wakeClient.toNat), (95, 92, m.wakeKind.toNat),
    (90, 88, domCode s d), (87, 72, votesOf s d), (71, 64, m.failedBlocks.toNat), (63, 32, m.failedMask.toNat),
    (31, 16, m.wakes.toNat)]

def execPwrStatusGet (sub : Sub) (domain : Handle) (s : State) : Host.Outcome State Fault Refusal :=
  .next (runCommand Cat.pwrStatusGet sub (pack 384 [(31, 0, domain.toNat)])
    { act := fun s => .ok (pwrStatus s (fld domain 19 0)) s } s)

def execDomainHoldoffExpiry (dom : BitVec 6) (s : State) : Host.Outcome State Fault Refusal :=
  if 48 ≤ dom.toNat then .fault .noSuchUnit else .next (holdoffExpiry dom.toNat s)

def execDomainDropDone (dom : BitVec 6) (s : State) : Host.Outcome State Fault Refusal :=
  if 48 ≤ dom.toNat then .fault .noSuchUnit else .next (dropDone dom.toNat s)

/-! ### Supply monitors (R368) -/

def State.rail (s : State) (r : Nat) : Rail := Map.val s.power.rails r Rail.reset
def State.modRail (s : State) (r : Nat) (f : Rail → Rail) : State :=
  { s with power := { s.power with rails := Map.ins s.power.rails r (f (s.rail r)) } }

/-- A stamp taken at an instant of TB carries SUPPLY_EVENT: from the start of a dip until 1 µs after its end. -/
def TimeView.supplyEvent (v : TimeView) (e : Nat) : Bool :=
  v.dip || (match v.dipEndNs with
    | some t => decide (e / nsUnit < t + 1000)
    | none => false)
def State.supplyEvent (s : State) : Bool := s.view.supplyEvent s.time.tb

/-- SUPPLY_DIP_START. -/
def dipStart (r : Nat) (s : State) : State :=
  if s.mode = .reset then s else (s.mark false).modRail r (fun x => { x with inDip := true })

/-- SUPPLY_DIP_END: SUP_STATUS, and one NOTE fault of kind SUPPLY_DIP. -/
def dipEnd (r : Nat) (minPm : BitVec 10) (durationNs : Nat) (s : State) : State :=
  if s.mode = .reset ∨ !(s.rail r).inDip then s
  else
    let s1 := (s.mark false).modRail r (fun x => { x with
      inDip := false, minPm := minPm, dips := if x.dips = 0xFFFF then x.dips else x.dips + 1
      duration := BitVec.ofNat 25 (sat 25 durationNs) })
    let s2 : State := { s1 with power := { s1.power with dipEndNs := some s.tbNs } }
    s2.raise 0x1007 0x0A0 0 1 (r * 2 ^ 45 + sat 25 durationNs * 2 ^ 20 + minPm.toNat * 2 ^ 8)

def execSupplyDipStart (rail : BitVec 3) (s : State) : Host.Outcome State Fault Refusal := .next (dipStart rail.toNat s)

def execSupplyDipEnd (rail : BitVec 3) (minPm : BitVec 10) (durationNs : Nat) (s : State) :
    Host.Outcome State Fault Refusal := .next (dipEnd rail.toNat minPm durationNs s)

/-- PWR_RESET_CAUSE_READ: the fields are cleared on read (Table 15.7). -/
def readResetCause (s : State) : State :=
  if s.hostUp then
    State.emit { s with power := { s.power with causeValid := false, causeRail := 0 } }
      (.read 0xC600 (pack 128 [(31, 31, s.power.causeValid.toNat), (2, 0, s.power.causeRail.toNat)]))
  else s

def execPwrResetCauseRead (s : State) : Host.Outcome State Fault Refusal := .next (readResetCause s)

end Sys2Proof.Machine
end

