-- ==== Sys2Proof/Machine/Geometry.lean ====
section
/-! DEFINITION. Port types and lanes (R41, R68, R69), and the registers a port is created with. -/

namespace Sys2Proof.Machine

/-- Lanes of a port type; 0 for a reserved type (Table 3.1). -/
def laneCount (t : Nat) : Nat :=
  match t with
  | 1 => 1 | 2 => 2 | 3 => 4 | 4 => 8 | 5 => 1 | 6 => 2 | 7 => 4 | 8 => 1 | 9 => 1 | 10 => 1 | _ => 0

/-- Lane mode of a port type (Tables 2.1 and 3.1). -/
def laneModeOf (t : Nat) : Nat :=
  match t with
  | 1 => 1 | 2 => 1 | 3 => 1 | 4 => 1 | 5 => 2 | 6 => 3 | 7 => 4 | 8 => 3 | 9 => 4 | 10 => 5 | _ => 0

/-- Port rate in Gb/s (Table 3.1). -/
def portRate (t : Nat) : Nat :=
  match t with
  | 1 => 200 | 2 => 400 | 3 => 800 | 4 => 1600 | 5 => 100 | 6 => 100 | 7 => 100 | 8 => 50 | 9 => 25 | 10 => 10 | _ => 0

/-- FEC codes that a type allows, its default first (Tables 3.1 and 3.4). -/
def fecAllowed (t : Nat) : List Nat :=
  match t with
  | 1 => [3] | 2 => [3] | 3 => [3] | 4 => [3] | 5 => [3] | 6 => [3] | 7 => [2] | 8 => [3] | 9 => [2, 1, 0] | 10 => [0, 1]
  | _ => []

/-- Fields of PORT_CFG (Table 3.4). -/
def Port.type (p : Port) : Nat := fld p.cfg 7 4
def Port.enabled (p : Port) : Bool := bitAt p.cfg 0
def Port.maxFrame (p : Port) : Nat := fld p.cfg 61 48
def Port.fec (p : Port) : Nat := fld p.cfg 11 10
def Port.module_ (p : Port) : Bool := bitAt p.cfg 9
def Port.lanes (p : Port) : Nat := laneCount p.type
def Port.native (p : Port) : Bool := laneModeOf p.type == 1
def Port.rate (p : Port) : Nat := portRate p.type

/-- The global lanes of a port: its own number and those that follow (R42). -/
def lanesOf (n : Nat) (p : Port) : List Nat := (List.range p.lanes).map (n + ·)

/-- The port that a lane is bound to, where one exists. -/
def boundPort (s : State) (l : Nat) : Option Nat :=
  (s.ports.find? (fun e => decide (e.1 ≤ l) && decide (l < e.1 + e.2.lanes))).map (·.1)

/-- Default taps of a lane mode (Table 2.7), and the default TRAIN_TIMEOUT in units of 10 ms (Table 2.8). -/
def defaultTaps (mode : Nat) : BitVec 8 × BitVec 8 × BitVec 8 :=
  match mode with
  | 2 => (6, 51, 6) | 3 => (6, 51, 6) | 4 => (4, 50, 9) | 5 => (0, 54, 9) | _ => (0, 0, 0)
def defaultTimeout (mode : Nat) : Nat :=
  match mode with
  | 1 => 600 | 2 => 300 | 3 => 300 | _ => 50

/-- An IPC account at its reset values (Table 7.4), with MIN as PORT_CREATE gives it. -/
def Ipc.create (min : Nat) : Ipc :=
  { reg := pack 64 [(44, 32, 0x100), (28, 16, 0xC0), (11, 0, min)], minUsed := 0, sharedUsed := 0, hdrmUsed := 0
    paused := false, xoffNs := none }

/-- An egress class at its reset values (Table 8.7). -/
def EgrClass.reset : EgrClass :=
  { reg := 0x100, s := 0, f := 0, wasSelectable := false, lvl := 0, queue := [], granted := 0, sliceTurn := 0 }

/-- No pause received. -/
def PauseState.reset : PauseState := { untilNs := none, since := none, lastXoff := none, storm := false }

/-- A link that is down, with no history. -/
def LinkState.reset : LinkState :=
  { up := false, rs := .none, calibrated := false, cleanNs := none, downs := [], holdUntil := none, timeouts := 0, slowRaised := false
    trainEnd := none, alignEnd := none, backoffEnd := none }

/-- The eight classes. -/
def classes : List Nat := List.range 8

/-- A port right after PORT_CREATE: ENABLE = 0 and the reset values of its registers (R73, R108, R144, R180, R199, R222, R254,
R341). -/
def Port.create (typ min : Nat) : Port :=
  { cfg := pack 64 [(61, 48, 0x5F2), (11, 10, (fecAllowed typ).headD 0), (7, 4, typ)]
    guard := 0xC064_0FA0_0500_A01E, attr := 0, parse := 0, punt := 0x3E8_0040_0040, flow := 0, egrCfg := 0x400
    sample := 0, egrSched := 0x14_0014, ptpCfg := 0x400, ptpDelay := 0, telem := 0, polSel := []
    ipc := classes.map (fun c => (c, Ipc.create min)), egr := classes.map (fun c => (c, EgrClass.reset)), pause := [], v := []
    link := LinkState.reset, serWindow := 1000, serThresh := 2000, dRx := 0, dTx := 0, calNs := 0, calBound := 0
    calCount := 0, puntTok := 64000000000, puntNs := 0, trapTok := 64000000000, trapNs := 0, rxCount := 0, txCount := 0, pcCount := 0
    grantTurn := 0, tx := none, txClass := 0, txAt := 0, txAtTb := 0, txQual := 0, txEqCells := 0, txTrunc := none, txMax := 0x5F2, txAttr := 0, txMarks := [], gateOper := none
    gatePend := none }

def Port.ipcOf (p : Port) (c : Nat) : Ipc := Map.val p.ipc c (Ipc.create 0)
def Port.modIpc (p : Port) (c : Nat) (f : Ipc → Ipc) : Port := { p with ipc := Map.ins p.ipc c (f (p.ipcOf c)) }
def Port.egrOf (p : Port) (c : Nat) : EgrClass := Map.val p.egr c EgrClass.reset
def Port.modEgr (p : Port) (c : Nat) (f : EgrClass → EgrClass) : Port := { p with egr := Map.ins p.egr c (f (p.egrOf c)) }
def Port.pauseOf (p : Port) (c : Nat) : PauseState := Map.val p.pause c PauseState.reset
def Port.modPause (p : Port) (c : Nat) (f : PauseState → PauseState) : Port :=
  { p with pause := Map.ins p.pause c (f (p.pauseOf c)) }

/-- BUF_CLASS[s][c] (Table 7.5); SPILL_EN always reads 0 on the CX-2048E. -/
def Slice.classReg (x : Slice) (c : Nat) : BitVec 32 := Map.val x.bufClass c bufClassReset

/-- Fields of PORT_ATTR (Table 3.6). -/
def Port.priv (p : Port) : Bool := bitAt p.attr 31
def Port.auditFull (p : Port) : Bool := bitAt p.attr 30

/-- The PCS and MAC block of a port's slice, and a lane, as sources (Table 14.6). -/
def macSource (p : Nat) : Nat := 0x3003 + 0x100 * (p / 64)
def laneSource (l : Nat) : Nat := 0x4000 + 0x100 * (l / 128) + l % 128

/-- The link of a port is up (R78), and in hold-down (R79). -/
def linkUp (s : State) (p : Nat) : Bool := (s.port p).any (fun x => x.link.up)
def Port.held (p : Port) : Bool := p.link.holdUntil.isSome

/-- A port's class is stopped by received PFC or pause (R80, R82). -/
def Port.paused (p : Port) (now c : Nat) : Bool :=
  let x := p.pauseOf c
  (match x.untilNs with
    | some t => decide (now < t)
    | none => false) && !(x.storm && !bitAt p.guard 62)

end Sys2Proof.Machine
end

