-- ==== Sys2Proof/Machine/Sha.lean ====
section
/-! DEFINITION. SHA-256 and SHA-384 (FIPS 180-4), which R267, R270 and R377 name; on natural numbers, each word below 2^w. -/

namespace Sys2Proof.Machine

/-- Rotation right of a `w`-bit word. -/
def rotr (w n x : Nat) : Nat := (x >>> n) ||| ((x <<< (w - n)) % 2 ^ w)

/-- The two Σ functions and the two σ functions of a word size. -/
def bigSigma (w a b c x : Nat) : Nat := rotr w a x ^^^ rotr w b x ^^^ rotr w c x
def smallSigma (w a b c x : Nat) : Nat := rotr w a x ^^^ rotr w b x ^^^ (x >>> c)

/-- Ch and Maj. -/
def shaCh (w x y z : Nat) : Nat := (x &&& y) ^^^ ((2 ^ w - 1 - x) &&& z)
def shaMaj (x y z : Nat) : Nat := (x &&& y) ^^^ (x &&& z) ^^^ (y &&& z)

/-- Rotation amounts of a word size: Σ0, Σ1, σ0, σ1. -/
structure ShaKind where
  w : Nat
  s0 : Nat × Nat × Nat
  s1 : Nat × Nat × Nat
  g0 : Nat × Nat × Nat
  g1 : Nat × Nat × Nat
  k : List Nat

/-- The message schedule, newest word first: `n` words more. -/
def shaExtend (z : ShaKind) : Nat → List Nat → List Nat
  | 0, ws => ws
  | n + 1, ws =>
    let a := ws.getD 1 0
    let b := ws.getD 14 0
    let v := (smallSigma z.w z.g1.1 z.g1.2.1 z.g1.2.2 a + ws.getD 6 0 + smallSigma z.w z.g0.1 z.g0.2.1 z.g0.2.2 b + ws.getD 15 0) %
      2 ^ z.w
    shaExtend z n (v :: ws)

/-- The eight working variables. -/
structure ShaVars where
  a : Nat
  b : Nat
  c : Nat
  d : Nat
  e : Nat
  f : Nat
  g : Nat
  h : Nat

/-- One round on a schedule word and its constant. -/
def shaRound (z : ShaKind) (v : ShaVars) (x : Nat × Nat) : ShaVars :=
  let t1 := v.h + bigSigma z.w z.s1.1 z.s1.2.1 z.s1.2.2 v.e + shaCh z.w v.e v.f v.g + x.1 + x.2
  let t2 := bigSigma z.w z.s0.1 z.s0.2.1 z.s0.2.2 v.a + shaMaj v.a v.b v.c
  { a := (t1 + t2) % 2 ^ z.w, b := v.a, c := v.b, d := v.c, e := (v.d + t1) % 2 ^ z.w, f := v.e, g := v.f, h := v.g }

/-- One block, of 16 words. -/
def shaBlock (z : ShaKind) (v : ShaVars) (words : List Nat) : ShaVars :=
  let ws := (shaExtend z (z.k.length - 16) words.reverse).reverse
  let r := (z.k.zip ws).foldl (shaRound z) v
  { a := (v.a + r.a) % 2 ^ z.w, b := (v.b + r.b) % 2 ^ z.w, c := (v.c + r.c) % 2 ^ z.w, d := (v.d + r.d) % 2 ^ z.w
    e := (v.e + r.e) % 2 ^ z.w, f := (v.f + r.f) % 2 ^ z.w, g := (v.g + r.g) % 2 ^ z.w, h := (v.h + r.h) % 2 ^ z.w }

/-- The padded message: a 1 bit, zeros, and the length in bits. -/
def shaPad (z : ShaKind) (bs : List Byte) : List Byte :=
  let blk := 2 * z.w
  let len := z.w / 4
  bs ++ [0x80] ++ List.replicate ((2 * blk - (bs.length + 1 + len) % blk) % blk) 0 ++ beBytes len (8 * bs.length)

/-- The words of a padded message, 16 to a block. -/
def shaBlocks (z : ShaKind) : Nat → List Byte → List (List Nat)
  | 0, _ => []
  | n + 1, bs =>
    ((List.range 16).map (fun i => beNat (slice bs (z.w / 8 * i) (z.w / 8)))) :: shaBlocks z n (bs.drop (2 * z.w))

/-- The hash of a message from initial variables, as its eight words. -/
def shaRun (z : ShaKind) (v : ShaVars) (bs : List Byte) : List Nat :=
  let m := shaPad z bs
  let r := (shaBlocks z (m.length / (2 * z.w)) m).foldl (shaBlock z) v
  [r.a, r.b, r.c, r.d, r.e, r.f, r.g, r.h]

/-- Constants of SHA-256. -/
def sha256K : List Nat :=
  [0x428A2F98, 0x71374491, 0xB5C0FBCF, 0xE9B5DBA5, 0x3956C25B, 0x59F111F1, 0x923F82A4, 0xAB1C5ED5,
   0xD807AA98, 0x12835B01, 0x243185BE, 0x550C7DC3, 0x72BE5D74, 0x80DEB1FE, 0x9BDC06A7, 0xC19BF174] ++
  [0xE49B69C1, 0xEFBE4786, 0x0FC19DC6, 0x240CA1CC, 0x2DE92C6F, 0x4A7484AA, 0x5CB0A9DC, 0x76F988DA,
   0x983E5152, 0xA831C66D, 0xB00327C8, 0xBF597FC7, 0xC6E00BF3, 0xD5A79147, 0x06CA6351, 0x14292967] ++
  [0x27B70A85, 0x2E1B2138, 0x4D2C6DFC, 0x53380D13, 0x650A7354, 0x766A0ABB, 0x81C2C92E, 0x92722C85,
   0xA2BFE8A1, 0xA81A664B, 0xC24B8B70, 0xC76C51A3, 0xD192E819, 0xD6990624, 0xF40E3585, 0x106AA070] ++
  [0x19A4C116, 0x1E376C08, 0x2748774C, 0x34B0BCB5, 0x391C0CB3, 0x4ED8AA4A, 0x5B9CCA4F, 0x682E6FF3,
   0x748F82EE, 0x78A5636F, 0x84C87814, 0x8CC70208, 0x90BEFFFA, 0xA4506CEB, 0xBEF9A3F7, 0xC67178F2]

/-- Constants of SHA-384. -/
def sha512K : List Nat :=
  [0x428A2F98D728AE22, 0x7137449123EF65CD, 0xB5C0FBCFEC4D3B2F, 0xE9B5DBA58189DBBC,
   0x3956C25BF348B538, 0x59F111F1B605D019, 0x923F82A4AF194F9B, 0xAB1C5ED5DA6D8118,
   0xD807AA98A3030242, 0x12835B0145706FBE, 0x243185BE4EE4B28C, 0x550C7DC3D5FFB4E2,
   0x72BE5D74F27B896F, 0x80DEB1FE3B1696B1, 0x9BDC06A725C71235, 0xC19BF174CF692694] ++
  [0xE49B69C19EF14AD2, 0xEFBE4786384F25E3, 0x0FC19DC68B8CD5B5, 0x240CA1CC77AC9C65,
   0x2DE92C6F592B0275, 0x4A7484AA6EA6E483, 0x5CB0A9DCBD41FBD4, 0x76F988DA831153B5,
   0x983E5152EE66DFAB, 0xA831C66D2DB43210, 0xB00327C898FB213F, 0xBF597FC7BEEF0EE4,
   0xC6E00BF33DA88FC2, 0xD5A79147930AA725, 0x06CA6351E003826F, 0x142929670A0E6E70] ++
  [0x27B70A8546D22FFC, 0x2E1B21385C26C926, 0x4D2C6DFC5AC42AED, 0x53380D139D95B3DF,
   0x650A73548BAF63DE, 0x766A0ABB3C77B2A8, 0x81C2C92E47EDAEE6, 0x92722C851482353B,
   0xA2BFE8A14CF10364, 0xA81A664BBC423001, 0xC24B8B70D0F89791, 0xC76C51A30654BE30,
   0xD192E819D6EF5218, 0xD69906245565A910, 0xF40E35855771202A, 0x106AA07032BBD1B8] ++
  [0x19A4C116B8D2D0C8, 0x1E376C085141AB53, 0x2748774CDF8EEB99, 0x34B0BCB5E19B48A8,
   0x391C0CB3C5C95A63, 0x4ED8AA4AE3418ACB, 0x5B9CCA4F7763E373, 0x682E6FF3D6B2B8A3,
   0x748F82EE5DEFB2FC, 0x78A5636F43172F60, 0x84C87814A1F0AB72, 0x8CC702081A6439EC,
   0x90BEFFFA23631E28, 0xA4506CEBDE82BDE9, 0xBEF9A3F7B2C67915, 0xC67178F2E372532B] ++
  [0xCA273ECEEA26619C, 0xD186B8C721C0C207, 0xEADA7DD6CDE0EB1E, 0xF57D4F7FEE6ED178,
   0x06F067AA72176FBA, 0x0A637DC5A2C898A6, 0x113F9804BEF90DAE, 0x1B710B35131C471B,
   0x28DB77F523047D84, 0x32CAAB7B40C72493, 0x3C9EBE0A15C9BEBC, 0x431D67C49C100D4C,
   0x4CC5D4BECB3E42B6, 0x597F299CFC657E2A, 0x5FCB6FAB3AD6FAEC, 0x6C44198C4A475817]

def sha256Kind : ShaKind :=
  { w := 32, s0 := (2, 13, 22), s1 := (6, 11, 25), g0 := (7, 18, 3), g1 := (17, 19, 10), k := sha256K }

def sha512Kind : ShaKind :=
  { w := 64, s0 := (28, 34, 39), s1 := (14, 18, 41), g0 := (1, 8, 7), g1 := (19, 61, 6), k := sha512K }

/-- SHA-256 of a byte string: 32 bytes. -/
def sha256 (bs : List Byte) : List Byte :=
  (shaRun sha256Kind
    { a := 0x6A09E667, b := 0xBB67AE85, c := 0x3C6EF372, d := 0xA54FF53A
      e := 0x510E527F, f := 0x9B05688C, g := 0x1F83D9AB, h := 0x5BE0CD19 } bs).flatMap (beBytes 4)

/-- SHA-384 of a byte string: 48 bytes. -/
def sha384 (bs : List Byte) : List Byte :=
  (((shaRun sha512Kind
    { a := 0xCBBB9D5DC1059ED8, b := 0x629A292A367CD507, c := 0x9159015A3070DD17
      d := 0x152FECD8F70E5939, e := 0x67332667FFC00B31, f := 0x8EB44A8768581511
      g := 0xDB0C2E0D64F98FA7, h := 0x47B5481DBEFA4FA4 } bs).take 6).flatMap (beBytes 8))

end Sys2Proof.Machine
end

