-- ==== Sys2Proof/Machine/Stamp.lean ====
section
/-! DEFINITION. Stamps at the ball and their quality (R242 to R249), and the quality of the time base (R234, R235). -/

namespace Sys2Proof.Machine

/-- Units of 2^-32 ns in 2^-16 ns. -/
def tickUnit : Nat := 65536

/-- An instant rounded to the nearest 0.25 ns, ties to the later value (R242). -/
def roundQuarter (t : Nat) : Nat := (t + 536870912) / 1073741824 * 1073741824

/-- Quality codes (Table 9.4). -/
def qualityCode : Quality → Nat
  | .invalid => 0 | .freerun => 1 | .locked => 2 | .traceable => 3 | .holdover => 4

/-- Fields of TIME_CTL (Table 9.2). -/
def TimeState.traceAssert (t : TimeState) : Bool := bitAt t.ctl 0
def TimeState.ppsReq (t : TimeState) : Bool := bitAt t.ctl 2
def TimeState.refSel (t : TimeState) : Nat := fld t.ctl 4 3
def TimeState.ppsTolNs (t : TimeState) : Nat := fld t.ctl 47 32

/-- The quality that the conditions of Table 9.4 and R235 give. -/
def qualityNow (t : TimeState) : Quality :=
  if !t.set then .invalid
  else if t.refLock then
    if t.traceAssert && (!t.ppsReq || (t.ppsSeen && t.ppsTol)) then .traceable else .locked
  else if t.everLocked then .holdover
  else .freerun

/-- Stamp quality (Table 9.5) at an instant of TB in a slice. Device time advances as TB does between steps, so the second after a step is
a second of TB. -/
def stampQual (s : State) (sl e : Nat) (adapting : Bool) : BitVec 8 :=
  let v := s.viewAt e
  let recent := fun (b : Nat) => decide (b ≤ e) && decide (e ≤ b + secUnit)
  pack 8 [(6, 6, (s.time.slips.any (fun x => x.1 == sl && recent x.2)).toNat),
    (5, 5, (s.time.marks.any (fun m => m.step && recent m.before.tb)).toNat), (4, 4, adapting.toNat),
    (3, 3, (v.supplyEvent e).toNat), (2, 0, qualityCode v.quality)]

/-- A lane that carries a port's stream is in RECOVER or FROZEN (R246). -/
def adapting (s : State) (p : Nat) (x : Port) : Bool :=
  (lanesOf p x).any (fun l => (s.lane l).adapt == .recover || (s.lane l).adapt == .frozen)

/-- A signed field as an integer. -/
def sfld {n : Nat} (x : BitVec n) (hi lo : Nat) : Int :=
  let w := hi + 1 - lo
  let v := fld x hi lo
  if v < 2 ^ (w - 1) then v else (v : Int) - 2 ^ w

/-- A PTP stamp (R249): the stamp, 8 bit times at the port rate, and an adjustment in 2^-8 ns; to 2^-16 ns. -/
def ptpStamp (stamp : TimeVal) (rate : Nat) (adj : Int) : TimeVal :=
  timeOf ((ofTime stamp + 8 * nsUnit / rate : Int) + adj * 16777216).toNat

/-- A signed count as a 64-bit field, saturating. -/
def satSigned (v : Int) : BitVec 64 := BitVec.ofInt 64 (max (-9223372036854775808) (min v 9223372036854775807))

end Sys2Proof.Machine
end

