-- ==== Sys2Proof/Machine/Audit.lean ====
section
/-! DEFINITION. The Time Audit Unit (R259 to R282): records, the hash chain, checkpoints, spool, reserves, epochs and export;
and the AGENT votes of Table 15.2. -/

namespace Sys2Proof.Machine

/-! ### Spool and reserves (R272, R275) -/

def ARec.total (l : List ARec) : Nat := (l.map (·.slots)).sum

/-- Unexported slots that count against a chain's spool: on the CX-2048E all chains share one. -/
def spoolUsed (s : State) (c : Nat) : Nat :=
  if s.fuses.member = 3 then ((chainsThere s).map (fun k => ARec.total (s.chain k).spool)).sum else ARec.total (s.chain c).spool

/-- Slots of a chain's spool. -/
def spoolSlots (s : State) : Nat := if s.fuses.member = 3 then 262144 else 16777216

/-- The chains that enter and leave FULL together. -/
def fullWith (s : State) (c : Nat) : List Nat := if s.fuses.member = 3 then chainsThere s else [c]

/-- An epoch is open. -/
def State.epochOpen (s : State) : Bool := s.audit.nonce.isSome

/-- Records at the head of a chain that no checkpoint without its signature holds back (R270). -/
def readyRecords : List ARec → List ARec := List.takeWhile (·.ready)

/-- Records that host export, and port export, takes next. -/
def Chain.forHost (x : Chain) : List ARec := readyRecords (x.spool.filter (fun r => !r.hostTaken))
def Chain.forPort (x : Chain) : List ARec := readyRecords (x.spool.filter (fun r => r.portSent.isNone && !r.portTaken))

/-- The longest run of records that fits in some slots. -/
def fitting : Nat → List ARec → List ARec
  | _, [] => []
  | k, r :: rs => if r.slots ≤ k then r :: fitting (k - r.slots) rs else []

/-- AUD_CFG (Table 10.7). -/
def hostExport (s : State) : Bool := bitAt s.audit.cfg 63
def portExport (s : State) : Bool := bitAt s.audit.cfg 62
def expPort (s : State) : Nat := fld s.audit.cfg 51 42
def expBatch (s : State) : Nat := fld s.audit.cfg 61 55 + 1

/-- A slot is freed once every enabled export has taken it (R272). -/
def ARec.freed (s : State) (r : ARec) : Bool :=
  (hostExport s || portExport s) && (!hostExport s || r.hostTaken) && (!portExport s || r.portTaken)

/-- The records that no unsigned checkpoint holds back any more may be exported from now on (R270). -/
def markReady (now : Nat) : List ARec → List ARec
  | [] => []
  | r :: rs => if r.ready then { r with readyNs := some (r.readyNs.getD now) } :: markReady now rs else r :: rs

/-- Buffers are filled as records become ready. -/
def Chain.touch (host : Bool) (now : Nat) (x0 : Chain) : Chain :=
  let x := { x0 with spool := markReady now x0.spool }
  match x.buf, x.posted with
  | none, (a, l) :: rest => if host && !x.forHost.isEmpty then
      { x with buf := some { addr := a, len := l, startNs := now }, posted := rest } else x
  | _, _ => x

/-- A record put in its place by epoch (R278) and SEQ. -/
def insertSeq (r : ARec) : List ARec → List ARec
  | [] => [r]
  | a :: as => if a.epoch < r.epoch ∨ (a.epoch = r.epoch ∧ a.seq.toNat ≤ r.seq.toNat) then a :: insertSeq r as else r :: a :: as

/-- The records of both reserves in SEQ order. -/
def mergeSeq (a b : List ARec) : List ARec := b.foldl (fun l r => insertSeq r l) a

/-! ### Records (R264, R267) -/

/-- The common header of Table 10.2. -/
def auditHead (s : State) (c typ sub : Nat) (seq : BitVec 64) : List (Nat × Nat × Nat) :=
  [(155, 144, s.dev.deviceId.toNat), (143, 128, s.dev.domainId.toNat), (127, 96, (s.audit.nonce.getD 0).toNat % 2 ^ 32),
   (95, 32, seq.toNat), (17, 16, c), (15, 8, sub), (7, 0, typ)]

/-- The bytes B of a record that its chain covers. -/
def chainedBytes (slots : Nat) (bits : BitVec 2048) : List Byte := leBytes (if slots = 1 then 64 else 160) bits.toNat

/-- C after a record. -/
def nextHash (c : BitVec 256) (b : List Byte) : BitVec 256 := BitVec.ofNat 256 (leNat (sha256 (leBytes 32 c.toNat ++ b)))

/-- Where a record goes. -/
inductive Place where
  | spool | resHold | resSys
deriving DecidableEq, Repr

/-- A chain enters FULL (R275). -/
def State.enterFull (s : State) (c : Nat) : State :=
  foldNats (fullWith s c) (fun a k =>
    if (a.chain k).full then a
    else ((a.modChain k (fun x => { x with full := true })).bump (0x30 + k) 3 1).raise 0x1005 0x028 0 1 k) s

/-- The spool of a chain takes a record, behind those that a rate overflow left in the reserve (R275). -/
def spoolFits (s : State) (c slots : Nat) : Bool :=
  !(s.chain c).full && decide (spoolUsed s c + ARec.total (s.chain c).resHold + slots ≤ spoolSlots s)

/-- A record joins its chain. Outside FULL the records that a rate overflow left in the reserve enter the spool before it, so that
the spool stays in SEQ order (R272). -/
def State.pushRec (s : State) (c slots : Nat) (p : Place) (bits : BitVec 2048) : State :=
  let r : ARec := { epoch := s.audit.epochs, seq := (s.chain c).seq, slots := slots, bits := bits, hostTaken := false, portSent := none
                    portTaken := false, ready := slots == 1, readyNs := none }
  let s1 := (s.modChain c (fun x =>
    let y := { x with seq := x.seq + 1, hash := nextHash x.hash (chainedBytes slots bits), sinceCp := x.sinceCp + 1 }
    match p with
    | .spool => { y with spool := mergeSeq y.spool y.resHold ++ [r], resHold := [] }
    | .resHold => { y with resHold := y.resHold ++ [r] }
    | .resSys => { y with resSys := y.resSys ++ [r] })).bump (0x30 + c) 0 1
  let s2 := if p == .spool && decide (spoolSlots s1 ≤ spoolUsed s1 c) then s1.enterFull c else s1
  s2.modChain c (Chain.touch (hostExport s2) s2.tbNs)

/-- A place for an event, gap or checkpoint record: the spool, else the reserve of 1,024 slots. -/
def sysPlace (s : State) (c slots : Nat) : Option Place :=
  if spoolFits s c slots then some .spool
  else if ARec.total (s.chain c).resSys + slots ≤ 1024 then some .resSys
  else none

/-- An event, gap or checkpoint record that finds no place is skipped (R276). -/
def State.skipRec (s : State) (c : Nat) : State :=
  let s1 := (s.modChain c (fun x => { x with skipped := BitVec.ofNat 32 (sat 32 (x.skipped.toNat + 1)) })).bump (0x30 + c) 2 1
  if (s.chain c).reserveRaised then s1
  else (s1.modChain c (fun x => { x with reserveRaised := true })).raise 0x1005 0x02A 2 1 c

/-- An event, gap or checkpoint record; whether it found a place. -/
def State.pushSys (s : State) (c slots : Nat) (bits : BitVec 2048) : State × Bool :=
  match sysPlace s c slots with
  | none => (s.skipRec c, false)
  | some p => ((if p == .resSys then s.enterFull c else s).pushRec c slots p bits, true)

/-! ### Checkpoints (R268, R269) -/

/-- The witness of Table 10.6. -/
def witness (s : State) (x : Chain) : Nat :=
  let t := s.time
  (pack 256 [(255, 192, t.inc.toNat), (191, 176, t.ppsTolNs), (175, 160, t.steps.toNat), (159, 96, x.ppsMax.toNat),
    (95, 32, x.ppsLast.toNat), (31, 24, x.ppsEdges.toNat), (21, 21, x.sawAdapt.toNat), (20, 20, x.sawSupply.toNat),
    (19, 19, x.sawSlip.toNat), (18, 18, x.sawStep.toNat), (17, 17, t.ppsTol.toNat), (16, 16, t.ppsSeen.toNat),
    (12, 8, x.qualSeen.toNat), (7, 7, t.traceAssert.toNat), (6, 6, t.ppsReq.toNat),
    (5, 4, if t.refLock then t.refSel else 0), (3, 3, t.refLock.toNat), (2, 0, qualityCode t.quality)]).toNat

/-- A checkpoint, unsigned as yet (Table 10.5). -/
def checkpointBits (s : State) (c : Nat) (timer close : Bool) : BitVec 2048 :=
  let x := s.chain c
  pack 2048 (auditHead s c 0x04 (close.toNat + 2 * timer.toNat) x.seq ++
    [(1279, 1024, leNat (sha256 Config.deviceCert)), (1023, 768, witness s x), (767, 512, x.hash.toNat),
     (511, 480, x.skipped.toNat), (479, 416, x.missing.toNat), (415, 352, s.tbNs), (351, 224, s.now.toNat),
     (223, 160, x.prevCp.toNat)])

/-- The interval of a checkpoint starts. -/
def Chain.newInterval (q now : Nat) (x : Chain) : Chain :=
  { x with sinceCp := 0, cpNs := now, missing := 0, skipped := 0, ppsMax := 0, ppsLast := 0, ppsEdges := 0, sawAdapt := false
           sawSupply := false, sawSlip := false, sawStep := false, qualSeen := BitVec.ofNat 5 (2 ^ q) }

/-- A chain writes a checkpoint. One that finds no place is skipped, and the interval goes on. -/
def State.checkpoint (s : State) (c : Nat) (timer close : Bool) : State :=
  let k := (s.chain c).seq
  match s.pushSys c 4 (checkpointBits s c timer close) with
  | (t, true) =>
    (t.modChain c (fun x => { x.newInterval (qualityCode s.time.quality) s.tbNs with
      prevCp := k, lastCp := k, lastCpTime := s.now })).bump (0x30 + c) 1 1
  | (t, false) => t.modChain c (fun x => { x with cpNs := s.tbNs })

/-- A checkpoint that is due by count is written before the next record. One that finds no place is skipped, once (R276). -/
def State.dueCp (s : State) (c : Nat) : State :=
  if (s.chain c).sinceCp = 65536 then
    (s.checkpoint c false false).modChain c (fun x => { x with sinceCp := if x.sinceCp = 65536 then 65537 else x.sinceCp })
  else s

/-- The GAP record of a run that has ended (R275). -/
def State.writeGap (s : State) (c : Nat) : State :=
  match (s.chain c).gap with
  | none => s
  | some g =>
    let s1 := s.dueCp c
    let cause := (decide (g.holdDropped ≠ 0)).toNat + 2 * g.rate.toNat
    let bits : BitVec 2048 := pack 2048 (auditHead s1 c 0x02 cause (s1.chain c).seq ++
      [(511, 384, g.last.toNat), (383, 256, g.first.toNat), (255, 192, g.missing.toNat), (191, 160, g.holdDropped.toNat)])
    match s1.pushSys c 1 bits with
    | (t, true) => t.modChain c (fun x => { x with gap := none, missing := x.missing + g.missing })
    | (t, false) => t

/-- What precedes the next record outside FULL: the GAP record of an ended run, and a checkpoint that is due. -/
def State.beforeRec (s : State) (c : Nat) : State :=
  ((if (s.chain c).full then s else s.writeGap c)).dueCp c

/-- An event record in every chain (R266). In LOCKOUT the TAU has stopped (R278). -/
def State.auditEvent (s : State) (kind : Nat) (value : BitVec 64) (old new : Nat) (time : TimeVal) : State :=
  if !s.epochOpen || s.mode == .lockout then s
  else foldNats (chainsThere s) (fun a c =>
    let a1 := a.beforeRec c
    (a1.pushSys c 1 (pack 2048 (auditHead a1 c 0x03 kind (a1.chain c).seq ++
      [(383, 256, time.toNat), (255, 192, value.toNat), (175, 168, new), (167, 160, old)]))).1) s

/-- Every chain remembers what its witness reports. -/
def State.modChains (s : State) (f : Chain → Chain) : State := foldNats (chainsThere s) (fun a c => a.modChain c f) s

/-! ### Frame records (R261 to R263, R275) -/

/-- PORT_ATTR selects a frame's record (Table 3.6). -/
def auditSelects (attr : BitVec 32) (tx : Bool) (cls : Nat) : Bool := bitAt attr (if tx then 27 else 26) && bitAt attr (18 + cls)

/-- What a chain's queue gives in 1 ns, in 1/30 record: a record every 5 ns; the device takes 400 M records per second, which more
than two busy chains share alike (R38, R260, assumption 83). -/
def drainRate (busy : Nat) : Nat := if busy ≤ 2 then 6 else 12 / busy

/-- The fills of the chains' input queues after some nanoseconds; each round ends when a queue is empty. -/
def drainQueues : Nat → Nat → List Nat → List Nat
  | 0, _, fills => fills
  | k + 1, t, fills =>
    let busy := fills.filter (· != 0)
    match busy.min? with
    | none => fills
    | some least =>
      let r := drainRate busy.length
      let d := min t ((least + r - 1) / r)
      drainQueues k (t - d) (fills.map (· - r * d))

/-- The fill of a chain's input queue now, in 1/30 record. -/
def inFill (s : State) (c : Nat) : Nat :=
  (drainQueues 4 (s.tbNs - s.audit.inNs) ((List.range 4).map (fun k => (s.chain k).inLevel)))[c]?.getD 0

/-- The input queue has a place for a record of a hold port, or of a gap port. -/
def inRoom (s : State) (c : Nat) (hold : Bool) : Bool := decide (inFill s c + 30 ≤ 30 * (if hold then 8192 else 7168))

/-- A record takes its place in its chain's input queue. -/
def State.takeIn (s : State) (c : Nat) : State :=
  foldNats (chainsThere s) (fun a k => a.modChain k (fun x => { x with inLevel := inFill s k + (if k = c then 30 else 0) }))
    { s with audit := { s.audit with inNs := s.tbNs } }

/-- A copy in transmission whose record a hold port owes: its place was found when it started (R275). -/
def Port.owesRecord (x : Port) : Bool :=
  match x.tx with
  | none => false
  | some e => match e.frame.kind with
    | .auditExport _ _ => false
    | _ => bitAt x.txAttr 30 && auditSelects x.txAttr true e.frame.cls.toNat

/-- Places of a chain's hold reserve that such copies keep. -/
def placesKept (s : State) (c : Nat) : Nat := s.ports.countP (fun e => portQuad e.1 == c && e.2.owesRecord)

/-- Where the record of a frame goes (R260, R275): the spool; for a hold port its reserve, while the chain is FULL or its input queue
has no place. The record of a copy that has been `sent` has kept its place there. -/
def framePlace (s : State) (c : Nat) (hold sent : Bool) : Option Place :=
  if inRoom s c hold && spoolFits s c 1 then some .spool
  else if hold && (sent || decide ((s.chain c).resHold.length + placesKept s c < 3072)) then some .resHold
  else none

/-- A frame without a record is added to the chain's run (R275). -/
def State.missFrame (s : State) (c p : Nat) (hold : Bool) (stamp : TimeVal) : State :=
  let rate := !inRoom s c hold
  (s.modChain c (fun x =>
    let g := x.gap.getD { missing := 0, holdDropped := 0, rate := false, first := stamp, last := stamp }
    let h := if hold then BitVec.ofNat 32 (sat 32 (g.holdDropped.toNat + 1)) else g.holdDropped
    { x with gap := some { g with missing := g.missing + 1, holdDropped := h, rate := g.rate || rate, last := stamp } })).countPort p
    (if hold then 123 else 122) 1

/-- First 16 bytes of the SHA-256 digest of a frame's first 128 bytes. -/
def frameDigest (bytes : List Byte) : Nat := leNat ((sha256 (bytes.take 128)).take 16)

/-- What a FRAME record says of a frame. -/
structure FrameFacts where
  port : Nat
  attr : BitVec 32             -- PORT_ATTR of the port when the frame started (R84)
  tx : Bool
  cls : Nat
  stamp : TimeVal
  qual : BitVec 8
  flowId : BitVec 64
  version : BitVec 16
  bytes : List Byte
  term : Bool

/-- The FRAME record of Table 10.3. -/
def frameBits (s : State) (c : Nat) (f : FrameFacts) : BitVec 2048 :=
  pack 2048 (auditHead s c 0x01 f.qual.toNat (s.chain c).seq ++
    [(511, 384, frameDigest f.bytes), (383, 256, f.stamp.toNat), (255, 192, f.flowId.toNat), (191, 176, f.version.toNat),
     (169, 160, f.port), (23, 23, (decide (f.bytes.length < 128)).toNat), (22, 22, f.term.toNat), (21, 19, f.cls),
     (18, 18, f.tx.toNat)])

/-- The record of a frame that has found its place. What its stamp carries the witness reports. -/
def State.recordFrame (s : State) (c : Nat) (p : Place) (f : FrameFacts) : State :=
  let s1 := (if inRoom s c (bitAt f.attr 30) then s.takeIn c else s).modChain c (fun y => { y with
    sawAdapt := y.sawAdapt || bitAt f.qual 4, sawSupply := y.sawSupply || bitAt f.qual 3 })
  (s1.pushRec c 1 p (frameBits s1 c f)).countPort f.port (if f.tx then 121 else 120) 1

/-- What precedes a frame's record: a chain whose spool has no room any more is FULL; the records of R275 and R268; and the count of a
record that overflows the input queue. -/
def State.beforeFrame (s : State) (c : Nat) (hold sent : Bool) : State :=
  let s1 := if (s.chain c).full || spoolFits s c 1 then s else s.enterFull c
  let s2 := if inRoom s1 c hold then s1 else s1.bump (0x30 + c) 4 1
  match framePlace s2 c hold sent with
  | none => s2
  | some .spool => s2.beforeRec c
  | some _ => s2.dueCp c

/-- A frame is offered to the chain of its port's quadrant: the state after, and whether the frame may go on. A received
frame of a hold port that finds no place is dropped; no copy that a hold port has sent is without its record. -/
def State.auditFrame (s : State) (f : FrameFacts) : State × Bool :=
  let c := portQuad f.port
  match s.port f.port with
  | none => (s, true)
  | some _ =>
    if !s.epochOpen || s.mode != .run || !auditSelects f.attr f.tx f.cls then (s, true)
    else
      let hold := bitAt f.attr 30
      let s1 := s.beforeFrame c hold f.tx
      match framePlace s1 c hold f.tx with
      | none => (s1.missFrame c f.port hold f.stamp, !(hold && !f.tx))
      | some p => (s1.recordFrame c p f, true)

/-- A transmit class of a hold port waits while its record would find no place (R275). -/
def auditWaits (s : State) (p cls : Nat) : Bool :=
  match s.port p with
  | none => false
  | some x => s.epochOpen && x.auditFull && auditSelects x.attr true cls && (framePlace s (portQuad p) true false).isNone

/-! ### FULL ends, and slots are freed -/

/-- The chains that share a spool leave FULL when USED has fallen 65,536 below its slots (R275). No GAP record joins a chain
after the epoch's end (R278). -/
def State.leaveFull (s : State) (c : Nat) : State :=
  if (s.chain c).full && decide (spoolUsed s c + 65536 ≤ spoolSlots s) then
    foldNats (fullWith s c) (fun a k =>
      let t := a.modChain k (fun x => Chain.touch (hostExport a) a.tbNs
        { x with full := false, reserveRaised := false, spool := x.spool ++ mergeSeq x.resHold x.resSys, resHold := [], resSys := [] })
      if a.epochOpen then t.writeGap k else t) s
  else s

/-- Slots that every enabled export has taken are freed. -/
def State.freeSlots (s : State) (c : Nat) : State :=
  (s.modChain c (fun x => Chain.touch (hostExport s) s.tbNs
    { x with spool := x.spool.filter (fun r => !r.freed s) })).leaveFull c

/-! ### AGENT votes (Table 15.2: R174, R200, R279, R359) -/

/-- The vote Kettle holds as an agent. -/
def agentVote : Vote := { kind := 6, client := devHandle }

/-- A chain keeps the TAU and its HBM domain: an epoch is open, or its spool holds unexported slots (R279). -/
def chainHeld (s : State) (c : Nat) : Bool := s.epochOpen || !(s.chain c).spool.isEmpty

/-- Some FLOW_PORT tracks a class, or the quadrant holds a record (R174). -/
def flowHeld (s : State) (q : Nat) : Bool :=
  s.ports.any (fun e => fld e.2.flow 31 24 != 0) || s.tables.flows.any (fun e => e.1 / 8388608 == q)

/-- Some BUF_CLASS of the quadrant has SPILL_EN = 1 (R200). -/
def spillHeld (s : State) (q : Nat) : Bool :=
  (List.range 4).any (fun k => classes.any (fun c => bitAt ((s.slice (4 * q + k)).classReg c) 31))

/-- What Kettle needs of a domain. -/
def agentWants (s : State) (d : Nat) : Bool :=
  if d = 3 then (chainsThere s).any (chainHeld s)
  else if d < 36 then false
  else if d < 40 then true
  else if d < 44 then chainHeld s (d - 40) || flowHeld s (d - 40) || spillHeld s (d - 40)
  else flowHeld s (d - 44)

/-- Kettle's votes follow what it needs, outside RESET and LOCKOUT. -/
def State.agents (s : State) : State :=
  if !s.domLive then s
  else foldNats (3 :: (List.range 12).map (36 + ·)) (fun a d =>
    if !domThere a d then a
    else if agentWants a d then (if (a.dom d).votes.contains agentVote then a else a.takeVote d agentVote)
    else a.dropVote d agentVote) s

/-! ### Epochs (R277, R278) -/

/-- An epoch opens in every chain at once. -/
def State.openEpoch (s : State) (cause : Nat) : State :=
  let nonce := s.free 128
  let s1 : State := { s.drawn with audit := { s.audit with nonce := some nonce, epochs := s.audit.epochs + 1, awaiting := none } }
  let bits := fun (c : Nat) => (pack 2048 (auditHead s1 c 0x05 cause 0 ++
    [(511, 384, nonce.toNat), (383, 256, s.now.toNat), (255, 192, s.tbNs),
     (171, 168, (chainsThere s).foldl (fun a k => a + 2 ^ k) 0), (167, 160, s.fuses.member.toNat)]) : BitVec 2048)
  (foldNats (chainsThere s) (fun a c =>
    let a1 := a.modChain c (fun x => { x with seq := 0, hash := 0, prevCp := 0, gap := none, reserveRaised := false })
    (a1.pushSys c 1 (bits c)).1.modChain c (Chain.newInterval (qualityCode s.time.quality) s.tbNs)) s1).agents

/-- The epoch ends with a CLOSE checkpoint in every chain (R278). -/
def State.closeEpoch (s : State) : State :=
  if !s.epochOpen then s
  else
    let s1 := foldNats (chainsThere s) (fun a c => (a.beforeRec c).checkpoint c false true) s
    State.agents { s1 with audit := { s1.audit with nonce := none } }

/-! ### Rows -/

/-- AUDIT_CHECKPOINT_COUNT and AUDIT_CHECKPOINT_TIMER. -/
def countCp (c : Nat) (s : State) : State :=
  if chainThere s c && s.epochOpen && s.mode != .lockout then s.dueCp c else s

def timerCp (c : Nat) (s : State) : State :=
  if chainThere s c && s.epochOpen && s.mode != .lockout && decide ((s.chain c).cpNs + 10000000 ≤ s.tbNs) then
    s.checkpoint c true false
  else s

def execAuditCheckpointCount (chain : BitVec 2) (s : State) : Host.Outcome State Fault Refusal :=
  .next (countCp chain.toNat s)

def execAuditCheckpointTimer (chain : BitVec 2) (s : State) : Host.Outcome State Fault Refusal :=
  .next (timerCp chain.toNat s)

/-- The first checkpoint that waits for its signature takes it, or is UNSIGNED. -/
def signFirst (f : ARec → ARec) : List ARec → List ARec
  | [] => []
  | r :: rs => if r.ready then r :: signFirst f rs else f r :: rs

/-- A checkpoint signed: SIG_R and SIG_S over the SHA-384 of its bytes 0 to 159; or UNSIGNED (R270). -/
def ARec.sign (ok : Bool) (r : ARec) : ARec :=
  if ok then
    let g := Config.deviceSign (sha384 (leBytes 160 r.bits.toNat))
    { r with ready := true, bits := setFld r.bits 2047 1280 g.toNat }
  else { r with ready := true, bits := setFld r.bits 10 10 1 }

/-- CHECKPOINT_SIGNED: the oldest unsigned checkpoint of the chain, in the spool first. AUDIT_SIGN is raised when both
engines have failed. -/
def signCp (c : Nat) (ok : Bool) (s : State) : State :=
  let x := s.chain c
  match ((x.spool ++ x.resSys).find? (fun r => !r.ready)) with
  | none => s
  | some r =>
    if !chainThere s c || s.mode == .lockout || s.mode == .reset then s
    else
      let inSpool := x.spool.any (fun r => !r.ready)
      let s1 := s.modChain c (fun y => Chain.touch (hostExport s) s.tbNs
        (if inSpool then { y with spool := signFirst (ARec.sign ok) y.spool }
         else { y with resSys := signFirst (ARec.sign ok) y.resSys }))
      let s2 : State := { s1 with audit := { s1.audit with signFailed := !ok } }
      if !ok && !s.audit.signFailed then s2.raise 0x1005 0x029 3 1 (c + 4 * (r.seq.toNat % 2 ^ 46)) else s2

def execCheckpointSigned (chain : BitVec 2) (engineOk : Bool) (s : State) : Host.Outcome State Fault Refusal :=
  .next (signCp chain.toNat engineOk s)

/-- The slots of some records as bytes. -/
def recordBytes (l : List ARec) : List Byte := l.flatMap (fun r => leBytes (64 * r.slots) r.bits.toNat)

/-- Some records as the spool's HBM gives them: a slot with an uncorrectable error is exported as read (R276). The CX-2048E spools to
memory on die. -/
def asRead (s : State) (l : List ARec) (bad : SpoolErrors) : List ARec :=
  if s.fuses.member = 3 then l
  else bad.foldl (fun a e => a.modify e.1 (fun r => { r with bits := e.2 })) l

/-- The DEGRADE faults of the slots so read: the chain, and the low bits of SEQ. -/
def State.spoolErrors (s : State) (c : Nat) (l : List ARec) (bad : SpoolErrors) : State :=
  if s.fuses.member = 3 then s
  else bad.foldl (fun a e => match l[e.1]? with
    | some r => a.raise 0x1005 0x02B 2 1 (c + 4 * (r.seq.toNat % 2 ^ 46))
    | none => a) s

/-- A buffer is handed back: full, with no room for the next record, or 1 ms after its first slot (R273). -/
def bufDone (now : Nat) (b : ExportBuf) (all : List ARec) : Bool :=
  let fit := fitting (b.len / 64) all
  !fit.isEmpty && (ARec.total fit == b.len / 64 || decide (fit.length < all.length) || decide (b.startNs + 1000000 ≤ now))

/-- AUDIT_BUF_HANDBACK: the buffer with its EMPTY slots, then its event; host export waits while the event has no place. -/
def handBack (c : Nat) (bad : SpoolErrors) (s : State) : State :=
  let x := s.chain c
  match x.buf with
  | none => s
  | some b =>
    let queue := fld s.audit.cfg 15 0
    if !chainThere s c || !s.hostUp || !hostExport s || !bufDone s.tbNs b x.forHost || !s.canHold queue then s
    else
      let l := fitting (b.len / 64) x.forHost
      let k := ARec.total l
      let s1 := s.emit (.dma b.addr (recordBytes (asRead s l bad) ++ List.replicate (b.len - 64 * k) 0))
      let s2 := (s1.postHeld queue 10 0 (pack 320 [(63, 0, b.addr.toNat), (95, 64, k),
        (159, 96, (l.head?.map (fun r => r.seq.toNat)).getD 0), (161, 160, c)])).bump (0x30 + c) 5 k
      let s3 := s2.modChain c (fun y => { y with
        buf := none, spool := y.spool.map (fun r => if l.contains r then { r with hostTaken := true } else r) })
      ((s3.freeSlots c).agents).spoolErrors c l bad

def execAuditBufHandback (e : ExportRead) (s : State) : Host.Outcome State Fault Refusal :=
  .next (handBack e.chain.toNat e.bad s)

/-! ### Commands (Table 10.10, R281) -/

/-- AUD_STATUS[q] (Table 10.9). -/
def audStatus (s : State) (c : Nat) : BitVec 64 :=
  let x := s.chain c
  if !chainThere s c then 0
  else pack 64 [(63, 63, s.epochOpen.toNat), (62, 62, x.full.toNat), (49, 38, ARec.total x.resHold), (37, 27, ARec.total x.resSys),
    (24, 0, ARec.total x.spool)]

/-- AUD_CERT_GET: the device certificate, then the intermediate one at the next 64-byte boundary. -/
def certGet (buf : Addr) (s : State) : Res :=
  .ok (pack 384 [(15, 0, Config.deviceCert.length), (31, 16, Config.intermediateCert.length)])
    (s.writeBuf buf (padTo 64 Config.deviceCert ++ Config.intermediateCert))

def execAudCertGet (sub : Sub) (buf : Addr) (bufLen : BitVec 32) (s : State) : Host.Outcome State Fault Refusal :=
  .next (runCommand Cat.audCertGet sub (pack 384 [(63, 0, buf.toNat), (95, 64, bufLen.toNat)])
    { bad := fun _ => misaligned buf || decide (bufLen.toNat < 8192)
      doms := fun _ => [3]
      act := certGet buf } s)

/-- AUD_BUF_POST (R273, R281). -/
def bufPost (addr : Addr) (len : BitVec 32) (c : Nat) (s : State) : Res :=
  let x := s.chain c
  if 64 ≤ x.posted.length + (if x.buf.isSome then 1 else 0) then .fail .noRoom s
  else .ok 0 (s.modChain c (fun x => Chain.touch (hostExport s) s.tbNs
    { x with posted := x.posted ++ [(addr, len.toNat)] }))

def execAudBufPost (sub : Sub) (addr : Addr) (len : BitVec 32) (chain : BitVec 2) (s : State) :
    Host.Outcome State Fault Refusal :=
  .next (runCommand Cat.audBufPost sub (pack 384 [(63, 0, addr.toNat), (95, 64, len.toNat), (97, 96, chain.toNat)])
    { bad := fun _ => addr.toNat % 4096 != 0 || len.toNat % 4096 != 0 || !inRange len.toNat 4096 1048576
      absent := fun s => !chainThere s chain.toNat
      doms := fun _ => [3]
      act := bufPost addr len chain.toNat } s)

/-- AUD_BUF_RECLAIM: posted buffers that hold nothing yet. -/
def bufReclaim (c : Nat) (s : State) : Res :=
  .ok (BitVec.ofNat 384 (s.chain c).posted.length) (s.modChain c (fun x => { x with posted := [] }))

def execAudBufReclaim (sub : Sub) (chain : BitVec 2) (s : State) : Host.Outcome State Fault Refusal :=
  .next (runCommand Cat.audBufReclaim sub (pack 384 [(1, 0, chain.toNat)])
    { absent := fun s => !chainThere s chain.toNat
      doms := fun _ => [3]
      act := bufReclaim chain.toNat } s)

/-- The result of AUD_STATUS_GET. -/
def audStatusResult (s : State) (c : Nat) : BitVec 384 :=
  let x := s.chain c
  pack 384 [(63, 0, (audStatus s c).toNat), (127, 64, x.seq.toNat), (191, 128, x.lastCp.toNat), (319, 192, x.lastCpTime.toNat)]

def execAudStatusGet (sub : Sub) (chain : BitVec 2) (s : State) : Host.Outcome State Fault Refusal :=
  .next (runCommand Cat.audStatusGet sub (pack 384 [(1, 0, chain.toNat)])
    { absent := fun s => !chainThere s chain.toNat
      doms := fun _ => [3]
      act := fun s => .ok (audStatusResult s chain.toNat) s } s)

end Sys2Proof.Machine
end

