-- ==== Sys2Proof/Machine/Buffers.lean ====
section
/-! DEFINITION. Ingress accounts, admission, VOQs, spill and discards (R176 to R194, R200), and the pause that the accounts
call for (R81, R183). -/

namespace Sys2Proof.Machine

/-- Cells of L bytes; the cells of a frame, which hold it as it was received, its rewrites standing in its descriptor (R177);
and its spill cells (R188). -/
def cellsFor (len : Nat) : Nat := (len + 255) / 256
def Frame.size (f : Frame) : Nat := cellsFor f.inLen
def spillCells (f : Frame) : Nat := (f.inLen + 48 + 495) / 496

/-- A frame cut to its first `n` bytes. -/
def Frame.cutTo (f : Frame) (n : Nat) : Frame := { f with bytes := f.bytes.take n, inLen := min f.inLen n }

/-- A frame has not wholly arrived at an egress queue. -/
def EqFrame.short (e : EqFrame) : Bool := decide (e.arrived < e.frame.size)

/-! ### Runs of pointers -/

/-- How many pointers some runs hold. -/
def Runs.count (r : Runs) : Nat := (r.map (·.2)).sum

/-- The first `n` pointers of some runs, and the rest. -/
def Runs.split : Nat → Runs → Runs × Runs
  | _, [] => ([], [])
  | n, (a, k) :: r =>
    if n = 0 then ([], (a, k) :: r)
    else if k ≤ n then (((a, k) :: (Runs.split (n - k) r).1), (Runs.split (n - k) r).2)
    else ([(a, n)], (a + n, k - n) :: r)

/-- Some runs without one pointer. -/
def Runs.without (cell : Nat) (r : Runs) : Runs :=
  r.flatMap (fun e => if e.1 ≤ cell && decide (cell < e.1 + e.2) then
    [(e.1, cell - e.1), (cell + 1, e.1 + e.2 - cell - 1)].filter (fun x => x.2 != 0) else [e])

/-- Some runs without several pointers. -/
def Runs.withoutAll (cells : List Nat) (r : Runs) : Runs := cells.foldl (fun a c => Runs.without c a) r

/-- The device index of a VOQ (R11). -/
def voqIndex (sl p c : Nat) : Nat := 8192 * sl + 8 * p + c
def voqSlice (v : Nat) : Nat := v / 8192
def voqClass (v : Nat) : Nat := v % 8

/-- The ingress port and slice of a frame. -/
def Frame.port (f : Frame) : Nat := f.inPort.toNat
def Frame.slice (f : Frame) : Nat :=
  match f.kind with
  | .postcard s => s.toNat
  | .received => f.inPort.toNat / 64
  | .ptpTx _ _ _ _ _ _ => f.inPort.toNat / 64
  | .auditExport _ _ => f.inPort.toNat / 64

/-- A counter of a frame's ingress port, for a frame that has one. -/
def State.countIn (s : State) (f : Frame) (slot : Nat) : State :=
  if f.kind == .received then s.countPort f.port slot 1 else s

/-- ON_DIE, SPILL and FRAMES of a VOQ (Table 7.2). -/
def Voq.onDieCells (v : Voq) : Nat := (v.onDie.map (·.cells)).sum
def Voq.spillCount (v : Voq) : Nat := (v.spill.map spillCells).sum + Runs.count v.walk
def Voq.frames (v : Voq) : Nat := v.onDie.length + v.spill.length
/-- Shared cells charged to a VOQ (R182). -/
def Voq.sharedCells (v : Voq) : Nat := ((v.onDie.filter (fun f => f.account == .shared || f.account == .pool)).map (·.cells)).sum

/-- BUF_IPC fields (Table 7.4). -/
def Ipc.min (a : Ipc) : Nat := fld a.reg 11 0
def Ipc.hdrm (a : Ipc) : Nat := fld a.reg 59 48
def Ipc.xoff (a : Ipc) : Nat := fld a.reg 44 32
def Ipc.xon (a : Ipc) : Nat := fld a.reg 28 16

/-- BUF_POOL[s].MIN_TOTAL (Table 7.3). -/
def minTotal (s : State) (sl : Nat) : Nat :=
  (s.ports.map (fun e => if e.1 / 64 = sl then (classes.map (fun c => (e.2.ipcOf c).min)).sum else 0)).sum

/-- The shared pool of a slice, and its free cells (R180, R345). -/
def sharedPool (s : State) (sl : Nat) : Nat :=
  98304 - minTotal s sl - (s.slice sl).hdrmPool.toNat - 1536 * (s.slice sl).inRetired
def sharedFree (s : State) (sl : Nat) : Nat := sharedPool s sl - (s.slice sl).sharedUsed

/-- Egress-buffer cells of a slice that are free. -/
def egrFree (s : State) (sl : Nat) : Nat := 16384 - 1024 * (s.slice sl).egRetired - (s.slice sl).egrUsed

/-- Some cell of a slice is in use. -/
def Slice.busy (x : Slice) : Bool := decide (0 < x.minUsed + x.sharedUsed + x.hdrmUsed + x.egrUsed)

/-- A retired bank that frames still occupy is empty once the slice's buffer is, or once a free value says that its last frame has
left it: which bank a cell lies in is the device's own (assumption 66). -/
def Slice.emptyBanks (f : BitVec 2) (x : Slice) : Slice :=
  let i := decide (0 < x.inLeaving) && (decide (x.minUsed + x.sharedUsed + x.hdrmUsed = 0) || bitAt f 0)
  let e := decide (0 < x.egLeaving) && (decide (x.egrUsed = 0) || bitAt f 1)
  { x with
    inRetired := x.inRetired + i.toNat, inLeaving := x.inLeaving - i.toNat
    egRetired := x.egRetired + e.toNat, egLeaving := x.egLeaving - e.toNat }
def State.emptyBanks (s : State) (sl : Nat) : State :=
  if (s.slice sl).inLeaving + (s.slice sl).egLeaving = 0 then s
  else (s.modSlice sl (Slice.emptyBanks (s.free 2))).drawn

/-- The BUFFER vote of a slice follows the use of its cells (Table 15.2), and so do the banks that are to be retired. -/
def State.bufVote (s0 : State) (sl : Nat) : State :=
  let s := s0.emptyBanks sl
  let held := (s.dom (4 + sl)).votes.contains (bufferVote sl)
  if (s.slice sl).busy then (if held then s else s.takeVote (4 + sl) (bufferVote sl))
  else s.dropVote (4 + sl) (bufferVote sl)

/-! ### Pause generation (R81, R183) -/

/-- Some class of a port is paused by its buffer thresholds. -/
def Port.anyPaused (p : Port) : Bool := p.ipc.any (fun e => e.2.paused)

/-- A pause or PFC frame leaves a port whose link is up: quanta 0xFFFF on XOFF, 0 on release; none in SAFE and LOCKOUT.
Table 3.9 does not say whether such frames count in TX_FRAMES and TX_OCTETS: they count in TX_PAUSE and TX_PFC alone
(assumption 80). -/
def State.sendPause (s : State) (p c : Nat) (xoff : Bool) : State :=
  match s.port p with
  | none => s
  | some x =>
    if (s.mode != .configure && s.mode != .run) || !x.link.up then s
    else
      let q : BitVec 16 := if xoff then 0xFFFF else 0
      let s1 := if xoff then s.modPort p (fun x => x.modIpc c (fun a => { a with xoffNs := some s.tbNs }))
        else s.modPort p (fun x => x.modIpc c (fun a => { a with xoffNs := none }))
      if bitAt x.cfg (32 + c) then
        (s1.emit (.pause (BitVec.ofNat 10 p) (some (BitVec.ofNat 3 c)) q)).countPort p (24 + c) 1
      else if bitAt x.cfg 14 then (s1.emit (.pause (BitVec.ofNat 10 p) none q)).countPort p 23 1
      else s1

/-- A lossless IPC (R182). -/
def lossless (p : Port) (c : Nat) : Bool := bitAt p.cfg (32 + c) || bitAt p.cfg 14

/-- The IPC becomes paused when its shared cells reach XOFF, and runs again at XON or below (R183). A port with PAUSE_TX_EN
sends pause for the first class that pauses and releases with the last that runs. -/
def State.checkIpc (s : State) (p c : Nat) : State :=
  match s.port p with
  | none => s
  | some x =>
    let a := x.ipcOf c
    if !a.paused && lossless x c && decide (a.xoff ≤ a.sharedUsed) then
      let s1 := s.modPort p (fun x => x.modIpc c (fun a => { a with paused := true }))
      if bitAt x.cfg 14 && x.anyPaused then s1 else s1.sendPause p c true
    else if a.paused && decide (a.sharedUsed ≤ a.xon) then
      let s1 := s.modPort p (fun x => x.modIpc c (fun a => { a with paused := false }))
      if bitAt x.cfg 14 && (s1.port p).any (fun x => x.anyPaused) then s1 else s1.sendPause p c false
    else s

/-! ### Accounts (R182) -/

/-- `n` cells more (`add`) or fewer in an account of the frame's IPC and slice. -/
def State.charge (s : State) (f : Frame) (acc : Account) (n : Nat) (add : Bool) : State :=
  let op := fun (v : Nat) => if add then v + n else v - n
  let sl := f.slice
  match acc with
  | .none => s
  | .pool => s.modSlice sl (fun x => { x with sharedUsed := op x.sharedUsed })
  | .min => (s.modSlice sl (fun x => { x with minUsed := op x.minUsed })).modPort f.port
      (fun x => x.modIpc f.cls.toNat (fun a => { a with minUsed := op a.minUsed }))
  | .shared => ((s.modSlice sl (fun x => { x with sharedUsed := op x.sharedUsed })).modPort f.port
      (fun x => x.modIpc f.cls.toNat (fun a => { a with sharedUsed := op a.sharedUsed }))).checkIpc f.port f.cls.toNat
  | .headroom => (s.modSlice sl (fun x => { x with hdrmUsed := op x.hdrmUsed })).modPort f.port
      (fun x => x.modIpc f.cls.toNat (fun a => { a with hdrmUsed := op a.hdrmUsed }))

/-- A frame's ingress cells return to their account (R193, R198). -/
def State.release (s : State) (f : Frame) : State := (s.charge f f.account f.cells false).bufVote f.slice

/-- Room that the account of a frame has left. -/
def accountRoom (s : State) (f : Frame) : Nat :=
  match f.account with
  | .none => 0
  | .shared => sharedFree s f.slice
  | .pool => sharedFree s f.slice
  | .min => match s.port f.port with
    | some x => (x.ipcOf f.cls.toNat).min - (x.ipcOf f.cls.toNat).minUsed
    | none => 0
  | .headroom => match s.port f.port with
    | some x => min ((x.ipcOf f.cls.toNat).hdrm - (x.ipcOf f.cls.toNat).hdrmUsed)
        ((s.slice f.slice).hdrmPool.toNat - (s.slice f.slice).hdrmUsed)
    | none => 0

/-! ### Spill (R188 to R191) -/

/-- The token buckets of a quadrant gain 25 cells every 32 core clocks, up to 256 cells; kept in 1/1024 cell. -/
def State.spillRefill (s : State) (q : Nat) : State :=
  s.modQuad q (fun x =>
    let gain := 1200 * (s.tbNs - x.tokNs)
    { x with writeTok := min (x.writeTok + gain) 262144, readTok := min (x.readTok + gain) 262144, tokNs := s.tbNs })

/-- Free spill cells: in the ring and in Caddy (Table 7.7). -/
def Quad.spillFree (x : Quad) : Nat := Runs.count x.ring + Runs.count x.caddy

/-- Bursts of 256 from the head of the ring to Caddy, and from Caddy to the tail of the ring (R191). -/
def Quad.refilled (x : Quad) (bursts : Nat) : Quad :=
  let t := Runs.split (256 * bursts) x.ring
  { x with ring := t.2, caddy := x.caddy ++ t.1 }
def Quad.wroteBack (x : Quad) (bursts : Nat) : Quad :=
  let t := Runs.split (256 * bursts) x.caddy
  { x with ring := x.ring ++ t.1, caddy := t.2 }

/-- Bursts that Caddy needs before it can give `k` pointers. -/
def refillsFor (x : Quad) (k : Nat) : Nat := (k - Runs.count x.caddy + 255) / 256

/-- Spill cells of a frame are written: tokens, pointers and the cell count. Caddy gives its pointers first in, first out, once
the bursts that it lacks have come from the ring (assumption 81). -/
def State.spillTake (s : State) (q k : Nat) : State × Runs :=
  let n := refillsFor (s.quad q) k
  let x := (s.quad q).refilled n
  let t := Runs.split k x.caddy
  let s1 := (s.modQuad q (fun _ => { x with writeTok := x.writeTok - 1024 * k, caddy := t.2 })).countQuad q 0 k
  (if n = 0 then s1 else s1.countQuad q 2 n, t.1)

/-- Spill cells are released: their pointers return to Caddy at once, those of retired cells apart; Caddy holds 4,096 at most,
so bursts of 256 that make room are written back to the ring (R191). -/
def State.spillGive (s : State) (q : Nat) (r : Runs) : State :=
  let x := s.quad q
  let y := { x with caddy := x.caddy ++ Runs.withoutAll x.spillRetired r }
  let bursts := (Runs.count y.caddy - 4096 + 255) / 256
  let s1 := s.modQuad q (fun _ => y.wroteBack bursts)
  if bursts = 0 then s1 else s1.countQuad q 3 bursts

/-- A frame is written to spill: refused for want of write tokens, or of a free cell (R190, R192). The slot is that of the
counter of the refusal at the ingress port. -/
def spillRoom (s : State) (q k : Nat) : Option Nat :=
  let x := s.quad q
  if x.writeTok < 1024 * k then some 102
  else if !x.spillReady || x.spillFree < k then some 103
  else none

/-- The VOQ counters of an arrival. -/
def State.countEnq (s : State) (v : Nat) (f : Frame) : State := (s.countVoq v 0 1).countVoq v 1 f.inLen

/-- A frame dropped at admission: the counter of its reason at a port, and the VOQ's. -/
def State.admDrop (s : State) (v : Option Nat) (p slot : Nat) : State :=
  let s1 := s.countPort p slot 1
  match v with
  | some v => s1.countVoq v 4 1
  | none => s1

/-- A frame as its segment holds it: it is stored, and so never cuts through (R187). -/
def Frame.toSpill (f : Frame) (at_ : Runs) : Frame :=
  { f with account := .none, cells := 0, spilled := true, cutThrough := false, spillAt := at_ }

/-- `spill_write` of R182: the frame is appended to the VOQ's segment, or dropped; the VOQ stays SPILLING. One found errored
has not started at egress and is dropped (R76). -/
def State.spillWrite (s : State) (v : Nat) (f : Frame) : State :=
  let q := f.slice / 4
  let s0 := s.spillRefill q
  if f.errored then s
  else match spillRoom s0 q (spillCells f) with
  | some slot => s0.admDrop (some v) f.port slot
  | none =>
    let t := s0.spillTake q (spillCells f)
    ((t.1.modVoq v (fun x => { x with spill := x.spill ++ [f.toSpill t.2] })).countEnq v f).countVoq v 5 1

/-! ### Admission (R182) -/

/-- α of a class for a colour, times 16 (R181). -/
def alpha16 (k : BitVec 32) (c : Colour) : Nat :=
  match c with
  | .green => 2 ^ fld k 27 24
  | .yellow => 2 ^ fld k 23 20
  | .red => 2 ^ fld k 19 16

/-- The class may spill for a colour. -/
def spillOk (s : State) (sl c : Nat) (col : Colour) : Bool :=
  let k := (s.slice sl).classReg c
  let b := match col with
    | .green => 28 | .yellow => 29 | .red => 30
  bitAt k 31 && bitAt k b && hbmThere s (sl / 4)

/-- ADM_DROP by colour (slots 96 to 98). -/
def admSlot : Colour → Nat
  | .green => 96 | .yellow => 97 | .red => 98

/-- The account that `n` cells of a frame are taken from; `vs` is what the VOQ or multicast queue already has of the shared
pool. -/
def chooseAccount (s : State) (f : Frame) (n vs : Nat) : Account :=
  let k := (s.slice f.slice).classReg f.queue.toNat
  match s.port f.port with
  | none => .none
  | some x =>
    let a := x.ipcOf f.cls.toNat
    if a.minUsed + n ≤ a.min then .min
    else if 16 * (vs + n) ≤ alpha16 k f.colour * sharedFree s f.slice && n ≤ sharedFree s f.slice then .shared
    else if lossless x f.cls.toNat && a.paused && decide (a.hdrmUsed + n ≤ a.hdrm) &&
        decide ((s.slice f.slice).hdrmUsed + n ≤ (s.slice f.slice).hdrmPool.toNat) then .headroom
    else .none

/-- The drop of a frame that no account takes (R182). -/
def refuseSlot (s : State) (f : Frame) : Nat :=
  match s.port f.port with
  | some x => if lossless x f.cls.toNat then 99 else admSlot f.colour
  | none => admSlot f.colour

/-- Why admission refuses every frame for an egress port and class (`egress_blocked`, R182): the port that counts it and
the slot. -/
def egressBlocked (s : State) (v p : Nat) (f : Frame) : Option (Nat × Nat) :=
  match s.port p with
  | none => some (f.port, 37)
  | some x =>
    if !x.link.up then some (p, 35)
    else if (x.pauseOf f.queue.toNat).storm && bitAt x.guard 62 then some (p, 36)
    else if (s.voq v).state == .flushing then some (f.port, 104)
    else none

/-- Cells of a frame taken at the estimate are trued up at its last byte: unused cells return, further cells come from the
same account while it has room; `none` when it has none (R182). -/
def trueUp (s : State) (f : Frame) (n : Nat) : Option (State × Frame) :=
  let t := f.size
  if t ≤ n then some (s.charge f f.account (n - t) false, { f with cells := t })
  else if t - n ≤ accountRoom s f then some (s.charge f f.account (t - n) true, { f with cells := t })
  else none

/-- A frame joins its VOQ on die. -/
def State.enqueue (s : State) (v : Nat) (f : Frame) : State :=
  let x := s.voq v
  let g := { f with voqCells := x.onDieCells + 2 * x.spillCount, occupancy := (s.slice f.slice).sharedUsed }
  ((s.modVoq v (fun x => { x with onDie := x.onDie ++ [g] })).countEnq v f).bufVote f.slice

/-- The admission procedure of R182 for a unicast frame toward a port. An overrun of a cut-through frame lets the cells that it
has go on, as a copy that will be ended with an error code. -/
def State.admitFrame (s : State) (p : Nat) (f : Frame) : State :=
  let v := voqIndex f.slice p f.queue.toNat
  let n := cellsFor f.estimate
  match egressBlocked s v p f with
  | some b => s.admDrop (some v) b.1 b.2
  | none =>
    let x := s.voq v
    let ok := spillOk s f.slice f.queue.toNat f.colour
    let stamped := { f with voqCells := x.onDieCells + 2 * x.spillCount, occupancy := (s.slice f.slice).sharedUsed }
    if x.state == .spilling then
      if ok then s.spillWrite v stamped else s.admDrop (some v) f.port 101
    else if ok && decide (fld ((s.slice f.slice).classReg f.queue.toNat) 15 0 < x.onDieCells + n) then
      (s.modVoq v (fun x => { x with state := .spilling })).spillWrite v stamped
    else
      let acc := chooseAccount s f n x.sharedCells
      if acc == .none then
        if ok then (s.modVoq v (fun x => { x with state := .spilling })).spillWrite v stamped
        else s.admDrop (some v) f.port (refuseSlot s f)
      else
        let g := { stamped with account := acc }
        let s1 := s.charge g acc n true
        match trueUp s1 g n with
        | some r => r.1.enqueue v r.2
        | none =>
          if f.cutThrough then
            (s1.countPort f.port 100 1).enqueue v { g.cutTo (256 * n) with errored := true, cells := n }
          else (s1.charge g acc n false).admDrop (some v) f.port 100

/-! ### Discards (R78, R82, R88, R193, R200) -/

/-- A void cell: its frame was discarded while it crossed the fabric. -/
def Cell.void (c : Cell) : Cell := { c with frame := { c.frame with bytes := [] } }

/-- Cells between a VOQ and an egress queue, in the fabric or waiting for their order, carry nothing any more. -/
def State.voidCells (s : State) (p : Cell → Bool) : State :=
  let f := fun (c : Cell) => if p c then c.void else c
  { s with
    fabric := s.fabric.map f
    slices := s.slices.map (fun e => (e.1, { e.2 with
      reorder := e.2.reorder.map (fun r => (r.1, { r.2 with waiting := r.2.waiting.map f })) })) }

/-- Cells of a VOQ's head frame that was only partly sent carry nothing any more, and the copy that it began at
the egress queue is gone. -/
def State.voidHead (s : State) (v : Nat) : State :=
  match (s.voq v).onDie with
  | [] => s
  | f :: _ =>
    if f.sent = 0 then s
    else
      let sl := voqSlice v
      let p := voqPort v
      let c := voqClass v
      let mine := fun (x : Cell) => x.inSlice.toNat == sl && x.port == some (BitVec.ofNat 10 p) && x.frame.queue.toNat == c &&
        x.frame.stamp == f.stamp && x.frame.bytes == f.bytes
      let part := fun (e : EqFrame) => e.inSlice.toNat == sl && e.short
      let gone := match s.port p with
        | some x => (((x.egrOf c).queue.filter part).map (·.arrived)).sum
        | none => 0
      ((s.voidCells mine).modPort p (fun x => { (x.modEgr c (fun e => { e with queue := e.queue.filter (fun y => !part y) })) with
        tx := x.tx.map (fun e => if x.txClass.toNat == c && part e then { e with frame := { e.frame with errored := true } } else e) })).modSlice
        (p / 64) (fun y => { y with egrUsed := y.egrUsed - gone })

/-- A VOQ is discarded (R193): its on-die cells return at once; with a spill segment it is FLUSHING until the walk ends. -/
def State.discardVoq (s : State) (v : Nat) : State × Nat :=
  let x := s.voq v
  let n := x.frames
  let s1 := s.voidHead v
  let s2 := x.onDie.foldl (fun a f => a.release f) s1
  (s2.modVoq v (fun y => { y with
    onDie := [], spill := [], walk := y.walk ++ y.spill.flatMap (·.spillAt)
    state := if 0 < y.spillCount then .flushing else .onDie }), n)

/-- The VOQs of every ingress slice toward a port, for some classes, are discarded and counted at the port. -/
def State.discardToward (s : State) (p slot : Nat) (cs : List Nat) : State :=
  foldNats (List.range 16) (fun a sl => foldNats cs (fun b c =>
    if b.voq (voqIndex sl p c) = Voq.reset then b
    else
      let r := b.discardVoq (voqIndex sl p c)
      r.1.countPort p slot r.2) a) s

/-- A frame of the device's own is not sent whole: a PTP_TX completes with LINK_DOWN (R252), and the slots of an audit
export frame stay unexported (R272). -/
def State.lostOwn (s : State) (f : Frame) : State :=
  match f.kind with
  | .ptpTx q i _ _ _ _ => s.finishAt q.toNat i .linkDown 0 0
  | .auditExport c n => s.modChain c.toNat (fun x => { x with
      spool := x.spool.map (fun r => if r.portSent == some n then { r with portSent := none } else r) })
  | .received => s
  | .postcard _ => s

/-- Every frame held in a port's egress queues is discarded and counted (R78). A frame whose cells are still on their way is
discarded and counted as they land (landCell). -/
def State.discardEq (s : State) (p slot : Nat) : State :=
  match s.port p with
  | none => s
  | some x =>
    let all := x.egr.flatMap (fun e => e.2.queue)
    let cells := (all.map (·.arrived)).sum
    let s1 := all.foldl (fun a e => a.lostOwn e.frame) s
    let s3 := (s1.modPort p (fun x => { x with egr := x.egr.map (fun e => (e.1, { e.2 with queue := [] })) })).modSlice (p / 64)
      (fun y => { y with egrUsed := y.egrUsed - cells })
    (s3.countPort p slot all.length).bufVote (p / 64)

/-- Cells on their way to a port that is destroyed carry nothing any more, and its frames are discarded (R88). -/
def State.voidToward (s : State) (p : Nat) : State := s.voidCells (fun c => c.port == some (BitVec.ofNat 10 p))

/-- The audit record of a transmitted copy (R262); none of an export frame. -/
def State.auditTx (s : State) (p : Nat) (x : Port) (f : Frame) (term : Bool) : State :=
  match f.kind with
  | .auditExport _ _ => s
  | _ => (s.auditFrame { port := p, attr := x.txAttr, tx := true, cls := f.cls.toNat, stamp := timeOf x.txAt, qual := x.txQual
                         flowId := f.flowId, version := f.version, bytes := f.bytes, term := term }).1

/-- The most bytes of a copy that may leave its port: up to MAX_FRAME + 1 (R77), and up to the instant at which its gate ends
it (R219). -/
def Port.txLimit (x : Port) : Nat := min (x.txMax + 1) (x.txTrunc.getD (x.txMax + 1))

/-- A frame in transmission ends with an error code (R77), counted in TX_ERR_TERM; its record carries TERM, and digests the
bytes that the copy was meant to carry (R265). -/
def State.endTx (s : State) (p : Nat) : State :=
  match s.port p with
  | none => s
  | some x => match x.tx with
    | none => s
    | some e =>
      ((x.txMarks.foldl (fun a k => a.countPort p k 1) (((s.modPort p (fun x => { x with tx := none })).emit
        (.frame (BitVec.ofNat 10 p) (e.frame.cutTo x.txLimit).bytes true)).countPort p 21 1)).auditTx p x e.frame true).lostOwn e.frame

/-- What a port's link going down, or its disable, does to the frames toward it (R75, R78). -/
def State.flushPort (s : State) (p : Nat) : State := ((s.endTx p).discardToward p 35 classes).discardEq p 35

end Sys2Proof.Machine
end

