-- ==== Sys2Proof/Machine/Strainers.lean ====
section
/-! DEFINITION. The Strainers (R307 to R310): how items enter a bank, are drained into the host area and are noticed, and
the Strainer registers. -/

namespace Sys2Proof.Machine

/-- Bytes of a bank (chapter 11, The Strainer). -/
def bankBytes : Nat := 524288

/-- Length of an item: its header and its captured bytes padded to 64 (R308). -/
def SItem.len (i : SItem) : Nat := 64 + roundUp 64 i.bytes.length

/-- Bytes that a bank's items take. -/
def itemsLen (l : List SItem) : Nat := (l.map SItem.len).sum

/-- EN of a Strainer. -/
def Strainer.en (r : Strainer) : Bool := bitAt r.cfg 63

/-- The header of Table 11.19, its ARRIVAL apart. -/
structure ItemInfo where
  stamp : TimeVal
  flowId : BitVec 64
  version : BitVec 16
  origLen : Nat
  capLen : Nat
  inPort : PortNo
  outPort : Nat
  qual : BitVec 8
  reason : Nat
  outcome : Nat
  prio : BitVec 3
  dir : Bool
  kind : BitVec 4
deriving DecidableEq, Repr

/-- The header of Table 11.19. -/
def itemHeader (i : ItemInfo) (arrival : BitVec 64) : Entry :=
  pack 512 [(511, 384, i.stamp.toNat), (383, 320, i.flowId.toNat), (319, 256, arrival.toNat), (255, 240, i.version.toNat),
    (239, 226, i.origLen), (225, 212, i.capLen), (211, 202, i.inPort.toNat), (201, 192, i.outPort), (191, 184, i.qual.toNat),
    (183, 180, i.reason), (179, 176, i.outcome), (175, 173, i.prio.toNat), (172, 172, i.dir.toNat), (171, 168, i.kind.toNat)]

/-- An item offered to a quadrant's Strainer (R307, R308): accepted whole into the filling bank, or refused, which is
counted as a drop for a full bank where the Strainer is enabled. -/
def State.offerItem (s : State) (q : Nat) (i : ItemInfo) (bytes : List Byte) : State × Bool :=
  let r := s.strainer q
  if !r.en then (s, false)
  else
    let it : SItem := { header := itemHeader i (r.arrival + 1), bytes := bytes, prio := i.prio, arrival := r.arrival + 1
                        kind := i.kind, inPort := i.inPort }
    if bankBytes < itemsLen r.fill + it.len then (s.modStrainer q (fun r => { r with dropped := r.dropped + 1 }), false)
    else (s.modStrainer q (fun r => { r with fill := r.fill ++ [it], arrival := r.arrival + 1 }), true)

/-- The oldest item of the highest priority (R309). -/
def nextItem : List SItem → Option SItem
  | [] => none
  | i :: is =>
    match nextItem is with
    | none => some i
    | some j => if i.prio.toNat < j.prio.toNat then some j else some i

/-- Where the next item goes in the area: an item that would cross the area's end starts at offset 0 (R309). -/
def itemOff (r : Strainer) (len : Nat) : Nat :=
  if 2 ^ fld r.cfg 62 58 < r.areaOff + len then 0 else r.areaOff

/-- The area holds a free space of a length at an offset: no item there whose notice is not returned. -/
def areaFree (r : Strainer) (off len : Nat) : Bool :=
  r.areaUsed.all (fun u => decide (off + len ≤ u.1) || decide (u.1 + u.2 ≤ off))

/-- The device starts to write the next item of the draining bank where the area and the notice ring have room. -/
def Strainer.startItem (r : Strainer) : Strainer :=
  if !r.en || r.inProgress.isSome then r
  else match nextItem r.drain with
    | none => r
    | some i =>
      if 0 < r.room && areaFree r (itemOff r i.len) i.len then
        { r with drain := r.drain.erase i, inProgress := some i }
      else r

/-- The notice of Table 11.20. -/
def noticeEntry (r : Strainer) (i : SItem) (off : Nat) : Entry :=
  pack 512 [(223, 160, r.dropped.toNat), (159, 96, i.arrival.toNat), (95, 86, i.inPort.toNat), (85, 82, i.kind.toNat),
    (81, 79, i.prio.toNat), (78, 64, i.len), (63, 32, off), (31, 24, r.lap.toNat), (15, 0, 0x0020)]

/-- STRAINER_BANK_SWAP (R309): the draining bank is empty and the filling bank holds an item. -/
def swapBanks (q : Nat) (s : State) : State :=
  let r := s.strainer q
  if r.en && s.hostUp && r.drain.isEmpty && r.inProgress.isNone && !r.fill.isEmpty then
    s.modStrainer q (fun r => Strainer.startItem { r with drain := r.fill, fill := [], fillBank := !r.fillBank })
  else s

/-- STRAINER_ITEM_WRITTEN (R285, R309): the item in progress has been written whole; its notice follows it. -/
def itemWritten (q : Nat) (s : State) : State :=
  let r := s.strainer q
  match r.inProgress with
  | none => s
  | some i =>
    if !s.hostUp then s
    else
      let off := itemOff r i.len
      let exp := BitVec.ofNat 5 (fld r.cfg 57 53)
      let n := advance exp r.index r.lap
      let irq := Irq.written s.tbNs r.irq
      let r' := Strainer.startItem { r with
        inProgress := none, areaOff := off + i.len, areaUsed := r.areaUsed ++ [(off, i.len)], room := r.room - 1
        index := n.1, lap := n.2, dropped := 0, irq := irq.1 }
      let s1 := ((((s.emit (.dma (r.areaBase + BitVec.ofNat 64 off) (leBytes 64 i.header.toNat ++ padTo 64 i.bytes))).emit
        (.record (entryAddr r.nringBase r.index) (noticeEntry r i off))).bump (0x34 + q) 0 1).bump (0x34 + q) 1 i.len)
      let s2 := s1.modStrainer q (fun _ => r')
      if irq.2 then s2.msix r.irq.vector else s2

/-- What a notice ring's read found (R309): the oldest `returned` notices have O = 1; their area space is free. -/
def State.takeNotices (s : State) (q returned : Nat) : State :=
  let k := min returned (s.strainer q).areaUsed.length
  s.modStrainer q (fun r => Strainer.startItem { r with areaUsed := r.areaUsed.drop k, room := r.room + k, reads := .live })

/-- STRAINER_NOTICE_POLL (R309), or its read failed (R286). -/
def noticesReturned (q : Nat) (returned : Option Nat) (s : State) : State :=
  let r := s.strainer q
  if r.en && s.hostUp && r.reads == .live then
    match returned with
    | none => s.modStrainer q (fun r => { r with reads := .retry })
    | some n => s.takeNotices q n
  else s

/-- The retry of a failed read of a notice ring (R286): a second failure stops the ring. A notice ring has no handle, so the index
in the fault's address is a free value (assumption 77). -/
def retryNotices (q : Nat) (returned : Option Nat) (s : State) : State :=
  let r := s.strainer q
  if r.en && s.hostUp && r.reads == .retry then
    match returned with
    | some n => s.takeNotices q n
    | none => ((s.modStrainer q (fun r => { r with reads := .stopped })).drawn).raiseDma 1 (s.free 20).toNat
  else s

/-- DMA_RETRY (R286): a failed read of ring entries is retried once. The number is that of the queue, the ring or the Strainer. -/
def retryRead (n : Nat) (x : RetriedRead) (s : State) : State :=
  match x with
  | .submission read => retrySubmission n read s
  | .completion room => retryCompletion n room s
  | .event room => retryEvent n (room.map (fun k r s => s.takeEventRoom n r k)) s
  | .records returned => retryEvent 0 (returned.map (fun k r s => (s.eventReads 0 r .live).takeRecords k)) s
  | .notice returned => retryNotices n returned s

/-- Both banks emptied at once (R310): items counted in STR_FLUSH_ITEMS, one part-way into the area in
STR_FLUSH_PARTIAL. -/
def State.flushBanks (s : State) (q : Nat) : State :=
  let r := s.strainer q
  let s1 := (s.bump (0x34 + q) 2 (r.fill.length + r.drain.length)).bump (0x34 + q) 3 (if r.inProgress.isSome then 1 else 0)
  s1.modStrainer q (fun r => { r with fill := [], drain := [], inProgress := none })

/-- A field of STR_CFG or a base register out of range for EN = 1 (R307). -/
def badStrCfg (r : Strainer) (v : BitVec 64) : Bool :=
  !inRange (fld v 62 58) 20 26 || badExp (fld v 57 53) || badPoll (fld v 43 14) || badBase r.areaBase || badBase r.nringBase

/-- A mode in which most host registers are writable: CONFIGURE or RUN. -/
def State.confRun (s : State) : Bool := s.mode == .configure || s.mode == .run

/-- A write of STR_CFG (R307): while EN = 0 in CONFIGURE and RUN; clearing EN is always accepted. -/
def writeStrCfg (q : Nat) (v : BitVec 64) (s : State) : State :=
  let r := s.strainer q
  let w := setFld v 13 0 0
  let off := 0x8010 + 0x100 * q
  if !s.hostUp || !quadThere s q then s
  else if !bitAt v 63 && r.en then s.modStrainer q (fun r => { r with cfg := setFld r.cfg 63 63 0 })
  else if !s.confRun || r.en then s.regReject (0x1010 + q) off
  else if bitAt v 63 then
    if badStrCfg r v then (s.latchLow off v).regReject (0x1010 + q) off
    else (s.latchLow off v).modStrainer q (fun r => Strainer.startItem { r with
      cfg := w, areaOff := 0, areaUsed := [], room := 2 ^ fld v 57 53, reads := .live, index := 0, lap := 1, arrival := 0, dropped := 0
      irq := { vector := BitVec.ofNat 8 (fld v 52 45), enabled := bitAt v 44, holdNs := 1000, untilNs := 0, owed := false } })
  else (s.latchLow off v).modStrainer q (fun r => { r with cfg := w })

/-- FLUSH: writing 1 to STR_CTL[q].FLUSH (R310). -/
def writeFlush (q : Nat) (s : State) : State := if s.hostUp && quadThere s q then s.flushBanks q else s

def execStrainerEnable (q : QuadNo) (value : BitVec 64) (s : State) : Host.Outcome State Fault Refusal :=
  .next (writeStrCfg q.toNat (setFld value 63 63 1) s)

def execStrainerDisable (q : QuadNo) (value : BitVec 64) (s : State) : Host.Outcome State Fault Refusal :=
  .next (writeStrCfg q.toNat (setFld value 63 63 0) s)

def execFlush (q : QuadNo) (s : State) : Host.Outcome State Fault Refusal := .next (writeFlush q.toNat s)

def execStrainerBankSwap (q : QuadNo) (s : State) : Host.Outcome State Fault Refusal := .next (swapBanks q.toNat s)

def execStrainerItemWritten (q : QuadNo) (s : State) : Host.Outcome State Fault Refusal := .next (itemWritten q.toNat s)

def execStrainerNoticePoll (q : QuadNo) (returned : Option Nat) (s : State) : Host.Outcome State Fault Refusal :=
  .next (noticesReturned q.toNat returned s)

def execDmaRetry (ring : QueueNo) (read : RetriedRead) (s : State) : Host.Outcome State Fault Refusal :=
  .next (retryRead ring.toNat read s)

end Sys2Proof.Machine
end

