-- ==== Sys2Proof/Machine/Lanes.lean ====
section
/-! DEFINITION. Lanes (R41 to R67): lane states, training and its time-outs, adaptation, retirement, lane tests and eye
scans, with the link state of R78 that follows from them. -/

namespace Sys2Proof.Machine

/-! ### Eye scans (R64 to R67) -/

/-- Points of one axis: how many strides fit, plus one. -/
def axisPoints (lo hi : Int) (step : Nat) : Nat := (hi - lo).toNat / step + 1

/-- A signed field of EYE_SCAN_START (Table 2.11). -/
def eyeSigned (p : BitVec 256) (hi lo : Nat) : Int := (BitVec.ofNat 8 (fld p hi lo)).toInt

/-- Offsets of the point after (V, P): phase rises through its row, then the next row starts below (R66). `none` after the
last point. -/
def eyeNext (p : BitVec 256) (v ph : Int) : Option (Int × Int) :=
  if ph + fld p 71 64 ≤ eyeSigned p 79 72 then some (v, ph + fld p 71 64)
  else if eyeSigned p 111 104 ≤ v - fld p 95 88 then some (v - fld p 95 88, eyeSigned p 87 80)
  else none

/-- The number of points of a scan (R66). -/
def eyePoints (p : BitVec 256) : Nat :=
  axisPoints (eyeSigned p 111 104) (eyeSigned p 103 96) (fld p 95 88) *
    axisPoints (eyeSigned p 87 80) (eyeSigned p 79 72) (fld p 71 64)

/-- The header of Table 2.12. -/
def eyeHeader (x : Scan) (outcome : BitVec 8) : Entry :=
  pack 512 [(511, 384, x.startTime.toNat), (383, 256, x.endTime.toNat), (191, 160, x.points), (159, 128, fld x.param 63 32),
    (127, 120, fld x.param 71 64), (119, 112, fld x.param 79 72), (111, 104, fld x.param 87 80), (103, 96, fld x.param 95 88),
    (95, 88, fld x.param 103 96), (87, 80, fld x.param 111 104), (79, 72, fld x.param 117 112), (71, 64, fld x.param 119 118),
    (63, 56, outcome.toNat), (39, 32, x.laneIdx.toNat), (31, 0, x.port.toNat)]

/-- EYE_SCAN_DONE is posted and the scan's place is free, or the scan waits for room in the ring's store (R303). -/
def State.postScan (s : State) (l : Nat) (x : Scan) (outcome : BitVec 8) : State :=
  if s.canHold x.queue.toNat then
    (s.modLane l (fun y => { y with scan := none })).postHeld x.queue.toNat 9 x.port
      (pack 320 [(15, 0, x.id.toNat), (23, 16, outcome.toNat), (63, 32, x.port.toNat), (66, 64, x.laneIdx.toNat), (127, 96, x.points)])
  else s.modLane l (fun y => { y with scan := some { x with done := some outcome } })

/-- A running scan ends: its header is written, then its event (R66, R67). -/
def State.endScan (s : State) (l : Nat) (outcome : BitVec 8) : State :=
  match (s.lane l).scan with
  | none => s
  | some x =>
    if x.done.isSome then s
    else (s.emit (.dma (BitVec.ofNat 64 (fld x.param 255 192)) (leBytes 64 (eyeHeader x outcome).toNat))).postScan l x outcome

/-- A lane state in which a scan runs (R65). -/
def scannable (st : LaneState) : Bool := st == .align || st == .up || st == .test

/-! ### Lane states (Tables 2.3 to 2.5) -/

/-- Adaptation after a move to a lane state; a freeze lasts through ALIGN and UP (R52). Table 2.5 lists no adaptation state
for AUTONEG: OFF there (assumption 79). -/
def adaptIn (st : LaneState) (old : Adapt) : Adapt :=
  match st with
  | .train => .acquire
  | .test => .acquire
  | .align => if old == .frozen then .frozen else .track
  | .up => if old == .frozen then .frozen else .track
  | .off => .off | .listen => .off | .autoneg => .off | .backoff => .off | .retired => .off

/-! ### What changes with time in a lane (R50, R59, R63) -/

/-- Symbol rate of a lane mode in units of 10 kBd (Table 2.1). -/
def symbolRate (mode : Nat) : Nat :=
  match mode with
  | 1 => 10625000 | 2 => 5312500 | 3 => 2656250 | 4 => 2578125 | 5 => 1031250 | _ => 0

/-- The most that a value has moved in `ns` of an adaptation state: its step, once per update interval (Table 2.5). -/
def adaptReach (mode : Nat) (a : Adapt) (ns : Nat) : Nat :=
  let ui := ns * symbolRate mode / 100000
  match a with
  | .off => 0
  | .frozen => 0
  | .track => ui / 65536 + 1
  | .acquire => 16 * (ui / 256 + 1)
  | .recover => 16 * (ui / 256 + 1)

/-- A value of `w` bits that has moved towards `want` by at most `reach`. -/
def stepTo (reach : Nat) (old want : Int) : Int := max (old - reach) (min (old + reach) want)

/-- An equaliser tap of `w` bits at bit `lo` of the taps, moved towards that of `want`. -/
def moveTap (reach w lo : Nat) (old want : BitVec 304) (x : BitVec 304) : BitVec 304 :=
  let at_ := fun (t : BitVec 304) => (BitVec.ofNat w (fld t (lo + w - 1) lo)).toInt
  setFld x (lo + w - 1) lo (BitVec.ofInt w (stepTo reach (at_ old) (at_ want))).toNat

/-- Equaliser values that have moved from `old` towards the free values `f` by at most `reach` each; the peaking stays within
18 dB. -/
def Equaliser.move (reach : Nat) (f : BitVec 384) (old : Equaliser) : Equaliser :=
  let want : BitVec 304 := f.setWidth 304
  let dfe := (List.range 3).foldl (fun x i => moveTap reach 16 (16 * i) old.taps want x) old.taps
  { taps := (List.range 32).foldl (fun x i => moveTap reach 8 (48 + 8 * i) old.taps want x) dfe
    peaking := BitVec.ofInt 5 (min 18 (stepTo reach old.peaking.toNat (fld f 308 304)))
    gain := BitVec.ofInt 8 (stepTo reach old.gain.toNat (fld f 316 309)) }

/-- The lane counts: corrected symbols in UP, checker errors in a test that has acquired (R63). -/
def Lane.counting (x : Lane) : Bool :=
  x.state == .up || (x.state == .test && x.test.any (fun t => t.acquired && t.chkEn))

/-- A saturating 64-bit sum. -/
def satAdd (v : BitVec 64) (n : Nat) : BitVec 64 := BitVec.ofNat 64 (sat 64 (v.toNat + n))

/-- A lane sampled at `now`: since the last sample its equaliser has moved within the bounds of Table 2.5 and its counts have
grown, both by what the free value `f` says (assumption 68). -/
def Lane.sample (mode now : Nat) (f : BitVec 384) (x : Lane) : Lane :=
  let n := if x.counting then fld f 380 317 else 0
  { x with
    eq := if x.adapt == .off || x.adapt == .frozen then x.eq
      else x.eq.move (adaptReach mode x.adapt (now - x.sampledNs)) f
    sampledNs := now
    serCount := if x.state == .up then x.serCount + n else x.serCount
    corr := satAdd x.corr n }

/-- The mode of a lane: that of the port it is bound to (R41). -/
def laneMode (s : State) (l : Nat) : Nat :=
  match boundPort s l with
  | none => 0
  | some p => match s.port p with
    | none => 0
    | some x => laneModeOf x.type

/-- A lane is sampled: before each change of its state or adaptation, and by LANE_STATUS_GET. -/
def State.sampleLane (s : State) (l : Nat) : State :=
  (s.modLane l (Lane.sample (laneMode s l) s.tbNs (s.free 384))).drawn

/-- A lane moves to a state. Adaptation starts from where it stands (R50). -/
def Lane.move (st : LaneState) (x : Lane) : Lane :=
  { x with
    state := st, adapt := adaptIn st x.adapt, amLock := st == .up, recoverNs := none
    test := if st == .test then x.test else none }

/-- A lane moves, and a scan that its new state does not carry ends with ABORTED_LINK (R67). -/
def State.moveLane (s : State) (l : Nat) (st : LaneState) : State :=
  let s1 := if scannable st then s else s.endScan l 0x02
  (s1.sampleLane l).modLane l (Lane.move st)

/-- Every lane of a port that is neither RETIRED nor in TEST moves (R46). -/
def State.moveLanes (s : State) (p : Nat) (st : LaneState) : State :=
  match s.port p with
  | none => s
  | some x => foldNats (lanesOf p x) (fun a l =>
      if (a.lane l).state == .retired || (a.lane l).state == .test then a else a.moveLane l st) s

/-- Every lane of a port is in a state. -/
def lanesIn (s : State) (p : Nat) (st : LaneState) : Bool :=
  match s.port p with
  | none => false
  | some x => (lanesOf p x).all (fun l => (s.lane l).state == st)

/-- Update of a port's link. -/
def State.modLink (s : State) (p : Nat) (f : LinkState → LinkState) : State :=
  s.modPort p (fun x => { x with link := f x.link })

/-! ### The link (R78) -/

/-- A link that is up goes down: counted, and every frame toward the port is discarded. -/
def State.linkDown (s : State) (p : Nat) : State :=
  let s1 := s.modLink p (fun k => { k with cleanNs := none })
  if linkUp s p then
    let s2 := s1.modLink p (fun k => { k with up := false, downs := (k.downs ++ [s.tbNs]).drop (k.downs.length - 255) })
    (s2.countPort p 34 1).flushPort p
  else s1

/-! ### Training (R57) -/

/-- The training time-out in force of a lane, in units of 10 ms. -/
def timeoutOf (mode : Nat) (x : Lane) : Nat := if x.timeout = 0 then defaultTimeout mode else x.timeout.toNat

/-- The time-out of a port's training: the shortest among its lanes, in ns (R46). -/
def portTimeout (s : State) (p : Nat) (x : Port) : Nat :=
  (lanesOf p x).foldl (fun a l => min a (10000000 * timeoutOf (laneModeOf x.type) (s.lane l))) 15000000000

/-- A lane at the start of a training: a native transmitter at preset 1; legacy taps at their defaults where training sets
them; the equaliser at its reset values; taps and equaliser as they are where they were retained (R49, R53, R55). -/
def Lane.startTraining (mode : Nat) (x : Lane) : Lane :=
  let t := defaultTaps mode
  let y := { x with trained := true, retained := false, eq := if x.retained then x.eq else {} }
  if mode = 1 then { y with preset := 1 }
  else if x.txCtl || x.retained then y
  else { y with cPre := t.1, cMain := t.2.1, cPost := t.2.2 }

/-- A start of a port's training, into AUTONEG or TRAIN. -/
def State.startTrain (s : State) (p : Nat) (st : LaneState) : State :=
  match s.port p with
  | none => s
  | some x =>
    let s1 := foldNats (lanesOf p x) (fun a l => a.modLane l (Lane.startTraining (laneModeOf x.type))) (s.moveLanes p st)
    s1.modLink p (fun k => { k with
      trainEnd := some (s.tbNs + portTimeout s p x), alignEnd := none, backoffEnd := none })

/-- A port whose lanes all listen and all detect a signal leaves LISTEN, while its chiplet has a reference (Table 2.4, R70,
R394). -/
def State.tryTrain (s : State) (p : Nat) : State :=
  match s.port p with
  | none => s
  | some x =>
    if lanesIn s p .listen && (lanesOf p x).all (fun l => (s.lane l).sigDet) && bitAt s.dev.refclk (p / 128) then
      s.startTrain p (if x.module_ then .train else .autoneg)
    else s

/-- Lanes of a port return to LISTEN, and start again where a signal is there. -/
def State.listen (s : State) (p : Nat) : State :=
  (((s.linkDown p).moveLanes p .listen).modLink p (fun k => { k with trainEnd := none, alignEnd := none, backoffEnd := none })).tryTrain
    p

/-- A port's lanes in ALIGN or UP go to TRAIN (R51, R52, R56). -/
def State.retrain (s : State) (p : Nat) : State :=
  if lanesIn s p .align || lanesIn s p .up then (s.linkDown p).startTrain p .train else s

/-- A time-out of training or of ALIGN: BACKOFF, its interval doubling from 10 ms to 1,280 ms; the eighth in a row raises
LANE_TRAIN_SLOW (R57). -/
def State.timeOut (s : State) (p : Nat) : State :=
  match s.port p with
  | none => s
  | some x =>
    let n := x.link.timeouts + 1
    let s1 := foldNats (lanesOf p x) (fun a l => a.modLane l (fun y => { y with
      trainTimeouts := if y.trainTimeouts = 0xFF then 0xFF else y.trainTimeouts + 1 })) ((s.linkDown p).moveLanes p .backoff)
    let slow := decide (8 ≤ n) && !x.link.slowRaised
    let s2 := s1.modLink p (fun k => { k with
      timeouts := n, trainEnd := none, alignEnd := none, slowRaised := k.slowRaised || slow
      backoffEnd := some (s.tbNs + 10000000 * 2 ^ min (n - 1) 7) })
    if slow then s2.raise (laneSource p) 0x040 0 (s.portGenOf p).toNat p else s2

/-- The port of a lane, with the lane's index in it. -/
def laneUse (s : State) (l : Nat) : Option (Nat × Nat) := (boundPort s l).map (fun p => (p, l - p))

/-! ### Enabling and disabling (R44, R60, R75) -/

/-- The PORT vote and the LANE_TEST vote of a port (Table 15.2). -/
def portVote (s : State) (p : Nat) : Vote := { kind := 1, client := portHandle s p }
def testVote (s : State) (p : Nat) : Vote := { kind := 3, client := portHandle s p }

/-- A test on a lane ends: OFF, and the vote is withdrawn with the port's last test. -/
def State.stopTest (s : State) (p l : Nat) : State :=
  if (s.lane l).state == .test then
    let s1 := s.moveLane l .off
    let more : Bool := match s1.port p with
      | some x => (lanesOf p x).any (fun k => (s1.lane k).state == .test)
      | none => false
    if more then s1 else s1.dropVote (20 + p / 64) (testVote s p)
  else s

/-- Lanes of an enabled port leave OFF once its SerDes group is powered: to LISTEN, or to RETIRED where the flag is set
(Table 2.4). -/
def State.bringUp (s : State) (p : Nat) : State :=
  match s.port p with
  | none => s
  | some x =>
    if x.enabled && s.domOn (20 + p / 64) then
      (foldNats (lanesOf p x) (fun a l =>
        if (a.lane l).state == .off then a.moveLane l (if (a.lane l).retired then .retired else .listen) else a) s).tryTrain p
    else s

/-- ENABLE from 0 to 1: tests end, the PORT votes are taken, the lanes come up. -/
def State.enablePort (s : State) (p : Nat) : State :=
  match s.port p with
  | none => s
  | some x =>
    let s1 := foldNats (lanesOf p x) (fun a l => a.stopTest p l) s
    (((s1.takeVote (4 + p / 64) (portVote s p)).takeVote (20 + p / 64) (portVote s p))).bringUp p

/-- ENABLE from 1 to 0: the frame in transmission ends with an error code, the lanes go OFF, every frame toward the port is
discarded, and the PORT votes are withdrawn. -/
def State.disablePort (s : State) (p : Nat) : State :=
  match s.port p with
  | none => s
  | some x =>
    let s1 := (s.linkDown p).flushPort p
    let s2 := foldNats (lanesOf p x) (fun a l => a.moveLane l .off) s1
    let s3 := s2.modLink p (fun k => { k with trainEnd := none, alignEnd := none, backoffEnd := none })
    (s3.dropVote (4 + p / 64) (portVote s p)).dropVote (20 + p / 64) (portVote s p)

/-- BAR0 offset of a port's block (Table 11.4). -/
def portBase (p : Nat) : Nat := 0x800000 + 0x80000 * (p / 64) + 0x400 * (p % 64)

/-- A slice register takes a write: CONFIGURE or RUN, and its slice in service (R362). -/
def State.sliceWritable (s : State) (sl : Nat) : Bool := s.confRun && s.domOn (4 + sl)

/-- A PORT_CFG value that R74 discards. -/
def badPortCfg (x : Port) (v : BitVec 64) : Bool :=
  !inRange (fld v 61 48) 128 16383 || !(fecAllowed x.type).contains (fld v 11 10) ||
  (bitAt v 15 && fld v 47 40 != 0) || (bitAt v 14 && fld v 39 32 != 0) ||
  (x.enabled && bitAt v 0 && (fld v 11 9 != fld x.cfg 11 9))

/-- A write of PORT_CFG (R74, R75). -/
def writePortCfg (p : Nat) (v : BitVec 64) (s : State) : State :=
  if !s.hostUp || !sliceThere s (p / 64) then s
  else
    match s.port p with
    | none => s.regReject (macSource p) (portBase p)
    | some x =>
      if !s.sliceWritable (p / 64) then s.regReject (macSource p) (portBase p)
      else if badPortCfg x v then (s.latchLow (portBase p) v).regReject (macSource p) (portBase p)
      else
        let keep := v &&& 0x3FFFFFFFFFFFCE01
        let s1 := (s.latchLow (portBase p) v).modPort p (fun y => { y with cfg := setFld keep 7 4 x.type })
        if bitAt v 0 && !x.enabled then s1.enablePort p
        else if !bitAt v 0 && x.enabled then s1.disablePort p
        else s1

def execPortEnable (port : PortNo) (cfg : BitVec 64) (s : State) : Host.Outcome State Fault Refusal :=
  .next (writePortCfg port.toNat (setFld cfg 0 0 1) s)

def execPortDisable (port : PortNo) (cfg : BitVec 64) (s : State) : Host.Outcome State Fault Refusal :=
  .next (writePortCfg port.toNat (setFld cfg 0 0 0) s)

/-! ### Lane rows -/

/-- Lane state machines run: ports exist only after BOOT, and RESET has none (R48). -/
def signalOn (l : Nat) (s : State) : State :=
  let s1 := s.modLane l (fun x => { x with sigDet := true })
  match boundPort s1 l with
  | none => s1
  | some p => s1.tryTrain p

/-- Loss of signal: the port's lanes go to LISTEN; a lane in TEST stays there (R44, R46). -/
def signalOff (l : Nat) (s : State) : State :=
  let s1 := s.modLane l (fun x => { x with sigDet := false })
  match boundPort s1 l with
  | none => s1
  | some p =>
    match s1.port p with
    | none => s1
    | some x => if x.enabled && s1.domOn (20 + p / 64) then s1.listen p else s1

def execSignalDetectAssert (lane : LaneNo) (s : State) : Host.Outcome State Fault Refusal := .next (signalOn lane.toNat s)

def execSignalDetectDeassert (lane : LaneNo) (s : State) : Host.Outcome State Fault Refusal :=
  .next (signalOff lane.toNat s)

def autonegDone (p : Nat) (s : State) : State := if lanesIn s p .autoneg then s.moveLanes p .train else s

def execAutonegComplete (port : PortNo) (s : State) : Host.Outcome State Fault Refusal := .next (autonegDone port.toNat s)

/-- Taps that keep every limit of R54. -/
def tapsOk (t : Nat × Nat × Nat) : Bool :=
  decide (t.1 ≤ 15) && inRange t.2.1 16 63 && decide (t.2.2 ≤ 31) && decide (t.1 + t.2.1 + t.2.2 ≤ 63) &&
  decide (t.1 + t.2.2 + 8 ≤ t.2.1)

/-- A lane with one tap at another magnitude. -/
def Lane.withTap (r : TapRequest) (y : Lane) : Lane :=
  match r.tap with
  | .pre => { y with cPre := r.value }
  | .main => { y with cMain := r.value }
  | .post => { y with cPost := r.value }

/-- A coefficient request (R55): not updated under TX_CTL = 1; a request that would break a limit of R54 leaves the tap and is
answered with the limit; any other moves the tap. -/
def Lane.answer (r : TapRequest) (y : Lane) : Lane × TapAnswer :=
  let z := y.withTap r
  if y.txCtl then (y, .notUpdated)
  else if tapsOk (z.cPre.toNat, z.cMain.toNat, z.cPost.toNat) then (z, .updated)
  else (y, .limit)

/-- The requests of a training, in order, each judged and answered (R55). -/
def State.answerTaps (s : State) (l : Nat) (rs : List TapRequest) : State :=
  rs.foldl (fun a r =>
    let y := (a.lane l).answer r
    (a.modLane l (fun _ => y.1)).emit (.tapAnswer (BitVec.ofNat 10 l) y.2)) s

/-- What the partner's requests of a training did on a lane: the native preset last requested (R53), or each legacy request
in turn (R55). Link training runs with MEDIUM = 0 only (R70). -/
def State.trainLane (s : State) (x : Port) (preset : Option (BitVec 8)) (rs : List TapRequest) (l : Nat) : State :=
  if x.module_ then s
  else if x.native then s.modLane l (fun y => { y with preset := preset.getD y.preset })
  else s.answerTaps l rs

/-- TRAIN_COMPLETE: every lane enters ALIGN. Per lane, the preset and the coefficient requests that its partner has made. -/
def trainDone (p : Nat) (presets : List (Option (BitVec 8))) (requests : List (List TapRequest)) (s : State) : State :=
  match s.port p with
  | none => s
  | some x =>
    if lanesIn s p .train then
      let s1 := foldNats (lanesOf p x) (fun a l => a.trainLane x (presets.getD (l - p) none) (requests.getD (l - p) []) l) s
      (s1.moveLanes p .align).modLink p (fun k => { k with alignEnd := some (s.tbNs + 20000000) })
    else s

def execTrainComplete (port : PortNo) (presets : List (Option (BitVec 8))) (requests : List (List TapRequest)) (s : State) :
    Host.Outcome State Fault Refusal := .next (trainDone port.toNat presets requests s)

/-- 180 ns of skew in UI of a lane mode, rounded down (Table 2.9). -/
def skewLimit (mode : Nat) : Nat :=
  match mode with
  | 1 => 19125 | 3 => 4781 | 4 => 4640 | _ => 0

/-- A lane enters UP: its counts and its symbol-error window start (R59, R63). -/
def Lane.enterUp (now : Nat) (skew : Nat) (x : Lane) : Lane :=
  { Lane.move .up x with corr := 0, serCount := 0, trainTimeouts := 0, skewUi := BitVec.ofNat 32 skew, serStart := now }

/-- ALIGN_LOCK: with a skew within the budget, every lane enters UP (R61); beyond it the markers are locked and the port stays
in ALIGN (R62). -/
def lockAlign (p : Nat) (skews : List (BitVec 32)) (s : State) : State :=
  match s.port p with
  | none => s
  | some x =>
    let at_ := fun (l : Nat) => (skews.getD (l - p) 0).toNat
    let ds := (lanesOf p x).map at_
    let lo := ds.foldl min (ds.headD 0)
    let hi := ds.foldl max 0
    if lanesIn s p .align && (x.lanes == 1 || decide (hi - lo ≤ skewLimit (laneModeOf x.type))) then
      (foldNats (lanesOf p x) (fun a l => (a.sampleLane l).modLane l (Lane.enterUp s.tbNs (at_ l - lo))) s).modLink p
        (fun k => { k with
          timeouts := 0, slowRaised := false, trainEnd := none, alignEnd := none, calibrated := false
          cleanNs := if k.rs = .none then some s.tbNs else none })
    else if lanesIn s p .align then foldNats (lanesOf p x) (fun a l => a.modLane l (fun y => { y with amLock := true })) s
    else s

def execAlignLock (port : PortNo) (skews : List (BitVec 32)) (s : State) : Host.Outcome State Fault Refusal :=
  .next (lockAlign port.toNat skews s)

/-- ALIGNMENT_LOST (R62). -/
def alignLost (p : Nat) (s : State) : State :=
  if lanesIn s p .up then
    ((s.linkDown p).moveLanes p .align).modLink p (fun k => { k with alignEnd := some (s.tbNs + 20000000) })
  else s

def execAlignmentLost (port : PortNo) (s : State) : Host.Outcome State Fault Refusal := .next (alignLost port.toNat s)

/-- RS_FAULT_RECEIVED (R78): the link goes down at once on a fault; with none, the 1 ms starts. -/
def rsFault (p : Nat) (f : RsFault) (s : State) : State :=
  match s.port p with
  | none => s
  | some _ =>
    if f = .none then
      s.modLink p (fun k => { k with
        rs := .none, cleanNs := if k.rs ≠ .none && lanesIn s p .up then some s.tbNs else k.cleanNs })
    else (s.linkDown p).modLink p (fun k => { k with rs := f })

def execRsFaultReceived (port : PortNo) (fault : RsFault) (s : State) : Host.Outcome State Fault Refusal :=
  .next (rsFault port.toNat fault s)

/-- LINK_UP (R78, R79): not before the calibration of this entry into UP has ended (R244). -/
def linkComesUp (p : Nat) (s : State) : State :=
  match s.port p with
  | none => s
  | some x =>
    if lanesIn s p .up && x.link.rs == .none && !x.held && x.link.calibrated && s.reached (x.link.cleanNs.map (· + 1000000)) then
      s.modLink p (fun k => { k with up := true })
    else s

def execLinkUp (port : PortNo) (s : State) : Host.Outcome State Fault Refusal := .next (linkComesUp port.toNat s)

/-- A port's link has a deadline that has passed. -/
def linkReached (s : State) (p : Nat) (f : LinkState → Option Nat) : Bool := (s.port p).any (fun x => s.reached (f x.link))

def trainExpiry (p : Nat) (s : State) : State :=
  if linkReached s p (·.trainEnd) && (lanesIn s p .autoneg || lanesIn s p .train || lanesIn s p .align) then s.timeOut p
  else s

def execTrainTimeoutExpiry (port : PortNo) (s : State) : Host.Outcome State Fault Refusal :=
  .next (trainExpiry port.toNat s)

def alignExpiry (p : Nat) (s : State) : State :=
  if linkReached s p (·.alignEnd) && lanesIn s p .align then s.timeOut p else s

def execAlignTimeout (port : PortNo) (s : State) : Host.Outcome State Fault Refusal := .next (alignExpiry port.toNat s)

def backoffOver (p : Nat) (s : State) : State :=
  if linkReached s p (·.backoffEnd) && lanesIn s p .backoff then s.listen p else s

def execBackoffExpiry (port : PortNo) (s : State) : Host.Outcome State Fault Refusal := .next (backoffOver port.toNat s)

/-- RECOVER_ENTRY (R51): a lane that is UP and in TRACK. -/
def recoverIn (l : Nat) (s : State) : State :=
  if (s.lane l).state == .up && (s.lane l).adapt == .track then
    (s.sampleLane l).modLane l (fun x => { x with
      adapt := .recover, recoverNs := some s.tbNs, scan := x.scan.map (fun y => { y with recover := true }) })
  else s

def execRecoverEntry (lane : LaneNo) (s : State) : Host.Outcome State Fault Refusal := .next (recoverIn lane.toNat s)

def recoverOut (l : Nat) (s : State) : State :=
  if (s.lane l).adapt == .recover then (s.sampleLane l).modLane l (fun x => { x with adapt := .track, recoverNs := none })
  else s

def execRecoverExit (lane : LaneNo) (s : State) : Host.Outcome State Fault Refusal := .next (recoverOut lane.toNat s)

/-- RECOVER_TIMEOUT (R51): 2 ms in RECOVER send the port to TRAIN. -/
def recoverLate (l : Nat) (s : State) : State :=
  match boundPort s l with
  | none => s
  | some p =>
    if (s.lane l).adapt == .recover && s.reached ((s.lane l).recoverNs.map (· + 2000000)) then s.retrain p else s

def execRecoverTimeout (lane : LaneNo) (s : State) : Host.Outcome State Fault Refusal := .next (recoverLate lane.toNat s)

/-- FREEZE_TIMEOUT (R52): the port of a frozen lane goes to TRAIN, which ends the freeze. -/
def freezeLate (l : Nat) (s : State) : State :=
  match boundPort s l with
  | none => s
  | some p => if (s.lane l).state == .up && (s.lane l).adapt == .frozen then s.retrain p else s

def execFreezeTimeout (lane : LaneNo) (s : State) : Host.Outcome State Fault Refusal := .next (freezeLate lane.toNat s)

/-- TEST_ACQUIRED (R44): the checker counts errors from the entry into TRACK; `bitErrors` is what it
has counted so far; what it counts after that is a free value. -/
def testAcquires (l : Nat) (bitErrors : BitVec 64) (s : State) : State :=
  match (s.lane l).test with
  | none => s
  | some t =>
    if (s.lane l).state == .test && (s.lane l).adapt == .acquire then
      (s.sampleLane l).modLane l (fun x => { x with
        adapt := .track, test := some { t with acquired := true }
        corr := if t.chkEn then satAdd x.corr bitErrors.toNat else x.corr })
    else s

def execTestAcquired (lane : LaneNo) (bitErrors : BitVec 64) (s : State) : Host.Outcome State Fault Refusal :=
  .next (testAcquires lane.toNat bitErrors s)

/-- A symbol-error window ends with `n` corrected symbols, or what a sample has shown of it where that is more; the next window
starts (R59, R63). -/
def Lane.endWindow (n start : Nat) (y : Lane) : Lane :=
  { y with corr := satAdd y.corr (n - y.serCount), serCount := 0, serStart := start }

/-- SER_WINDOW_END (R59): LANE_SER when the corrected count exceeds the threshold; the next window follows at once. -/
def serEnd (l corrected symbols : Nat) (s : State) : State :=
  match boundPort s l with
  | none => s
  | some p =>
    match s.port p with
    | none => s
    | some x =>
      let e := (s.lane l).serStart + 1000000 * x.serWindow.toNat
      if (s.lane l).state == .up && decide (e ≤ s.tbNs) then
        let s1 := s.modLane l (Lane.endWindow corrected e)
        if x.serThresh.toNat * symbols < corrected * 10000000 then
          s1.raise (laneSource l) 0x041 1 (s.portGenOf p).toNat l
        else s1
      else s

def execSerWindowEnd (lane : LaneNo) (corrected symbols : Nat) (s : State) : Host.Outcome State Fault Refusal :=
  .next (serEnd lane.toNat corrected symbols s)

/-- A lane is retired by a DEGRADE promoted from LANE_SER (R60, R350). The port goes down; its other lanes listen. -/
def State.retireLane (s : State) (l : Nat) : State :=
  let s1 := s.modLane l (fun x => { x with retired := true })
  if (s1.lane l).state == .off || (s1.lane l).state == .test then s1
  else
    match boundPort s1 l with
    | none => s1
    | some p => (((s1.linkDown p).moveLane l .retired).moveLanes p .listen).modLink p (fun k => { k with
        trainEnd := none, alignEnd := none, backoffEnd := none })

/-! ### Flap hold-down (R79) -/

/-- More than THRESH link-down events lie within some window. -/
def flapping (downs : List Nat) (thresh window : Nat) : Bool :=
  (downs.zip (downs.drop thresh)).any (fun e => decide (e.2 - e.1 ≤ window))

/-- FLAP_HOLD_DOWN. -/
def flapHold (p : Nat) (s : State) : State :=
  match s.port p with
  | none => s
  | some x =>
    if fld x.guard 31 24 != 0 && !x.held && flapping x.link.downs (fld x.guard 31 24) (1000000000 * fld x.guard 23 12) then
      ((s.linkDown p).modLink p (fun k => { k with
        cleanNs := x.link.cleanNs, holdUntil := some (s.tbNs + 1000000000 * fld x.guard 11 0) })).raise
        (macSource p) 0x042 0 (s.portGenOf p).toNat p
    else s

def execFlapHoldDown (port : PortNo) (s : State) : Host.Outcome State Fault Refusal := .next (flapHold port.toNat s)

/-- Hold-down ends and the event history is cleared. -/
def State.endHold (s : State) (p : Nat) : State := s.modLink p (fun k => { k with holdUntil := none, downs := [] })

def holdExpiry (p : Nat) (s : State) : State := if linkReached s p (·.holdUntil) then s.endHold p else s

def execHoldTimeExpiry (port : PortNo) (s : State) : Host.Outcome State Fault Refusal := .next (holdExpiry port.toNat s)

def execPortHoldClear (sub : Sub) (port : Handle) (s : State) : Host.Outcome State Fault Refusal :=
  .next (runCommand Cat.portHoldClear sub (pack 384 [(31, 0, port.toNat)])
    { doms := fun _ => [4 + fld port 19 0 / 64], act := fun s => .ok 0 (s.endHold (fld port 19 0)) } s)

/-! ### Lane commands (R42, R43) -/

/-- The index of a port handle, and the global lane that a lane command names. -/
def hPort (h : Handle) : Nat := fld h 19 0
def laneNamed (h : Handle) (idx : BitVec 3) : Nat := hPort h + idx.toNat

/-- LANE_IDX is out of range for the port (R42). -/
def badLaneIdx (s : State) (h : Handle) (idx : BitVec 3) : Bool := (s.port (hPort h)).any (fun x => decide (x.lanes ≤ idx.toNat))

/-- Domain of a lane command: the port's SerDes group. -/
def laneDoms (h : Handle) : State → List Nat := fun _ => [20 + hPort h / 64]

def laneStateCode : LaneState → Nat
  | .off => 0 | .listen => 1 | .autoneg => 2 | .train => 3 | .align => 4 | .up => 5 | .backoff => 6 | .retired => 7
  | .test => 8

def adaptCode : Adapt → Nat
  | .off => 0 | .acquire => 1 | .track => 2 | .recover => 3 | .frozen => 4

/-- The result of Table 2.10, of a lane that has been sampled. Whether a lane's markers are locked before its port locks is a
free value. -/
def laneStatus (s : State) (p l : Nat) : Entry :=
  let x := s.lane l
  let mode := match s.port p with
    | some y => laneModeOf y.type
    | none => 0
  let taps := mode != 1 && (x.trained || x.txCtl)
  let locked := x.amLock || (x.state == .align && bitAt (s.free 1) 0)
  pack 512 [(511, 208, x.eq.taps.toNat), (207, 200, x.trainTimeouts.toNat), (191, 160, x.skewUi.toNat),
    (159, 128, sat 32 x.serCount), (127, 64, x.corr.toNat), (63, 56, if mode = 1 then x.preset.toNat else 0),
    (55, 48, if taps then x.cPost.toNat else 0), (47, 40, if taps then x.cMain.toNat else 0),
    (39, 32, if taps then x.cPre.toNat else 0), (31, 28, laneStateCode x.state), (27, 24, mode), (23, 21, adaptCode x.adapt),
    (20, 20, x.sigDet.toNat), (19, 19, locked.toNat), (18, 18, x.retired.toNat), (17, 17, x.rxInv.toNat),
    (16, 16, x.txInv.toNat), (15, 15, x.txCtl.toNat)]

def execLaneStatusGet (sub : Sub) (buf : Addr) (port : Handle) (lane : BitVec 3) (s : State) :
    Host.Outcome State Fault Refusal :=
  .next (runCommand Cat.laneStatusGet sub (pack 384 [(63, 0, buf.toNat), (95, 64, port.toNat), (98, 96, lane.toNat)])
    { bad := fun s => misaligned buf || badLaneIdx s port lane
      doms := laneDoms port
      act := fun s =>
        let s1 := s.sampleLane (laneNamed port lane)
        .ok 0 (s1.writeBuf buf (leBytes 64 (laneStatus s1 (hPort port) (laneNamed port lane)).toNat)).drawn } s)

/-- LANE_CFG_SET's own conditions (R53, R54, Table 2.6). -/
def badLaneCfg (s : State) (h : Handle) (idx : BitVec 3) (ctl : Bool) (t : Nat × Nat × Nat) (timeout : Nat) : Bool :=
  badLaneIdx s h idx || (timeout != 0 && !inRange timeout 10 1500) ||
  (ctl && ((s.port (hPort h)).any (fun x => x.native) || ((s.port (hPort h)).any (fun x => !x.native) && !tapsOk t)))

/-- LANE_CFG_SET (R54 to R56). -/
def laneCfgAct (h : Handle) (idx : BitVec 3) (rxInv txInv ctl : Bool) (cPre cMain cPost : BitVec 8) (timeout : BitVec 16)
    (s : State) : Res :=
  let l := laneNamed h idx
  let x := s.lane l
  let s1 := s.modLane l (fun y =>
    let z := { y with rxInv := rxInv, txInv := txInv, txCtl := ctl, timeout := timeout }
    if ctl then { z with cPre := cPre, cMain := cMain, cPost := cPost } else z)
  .ok 0 (if x.rxInv != rxInv || x.txInv != txInv || x.txCtl != ctl then s1.retrain (hPort h) else s1)

def execLaneCfgSet (sub : Sub) (port : Handle) (lane : BitVec 3) (rxInvert txInvert txCtl : BitVec 1)
    (cPre cMain cPost : BitVec 8) (timeout : BitVec 16) (s : State) : Host.Outcome State Fault Refusal :=
  .next (runCommand Cat.laneCfgSet sub
    (pack 384 [(127, 96, port.toNat), (90, 88, lane.toNat), (83, 83, rxInvert.toNat), (82, 82, txInvert.toNat),
      (81, 81, txCtl.toNat), (63, 56, cPre.toNat), (55, 48, cMain.toNat), (47, 40, cPost.toNat), (31, 16, timeout.toNat)])
    { bad := fun s => badLaneCfg s port lane (txCtl == 1) (cPre.toNat, cMain.toNat, cPost.toNat) timeout.toNat
      doms := laneDoms port
      act := laneCfgAct port lane (rxInvert == 1) (txInvert == 1) (txCtl == 1) cPre cMain cPost timeout } s)

/-- The settings in force, in the layout of Table 2.6. -/
def laneCfg (s : State) (h : Handle) (idx : BitVec 3) : BitVec 384 :=
  let x := s.lane (laneNamed h idx)
  let mode := match s.port (hPort h) with
    | some y => laneModeOf y.type
    | none => 0
  let tap := fun (v : BitVec 8) => if mode = 1 then 0 else v.toNat
  pack 384 [(127, 96, h.toNat), (90, 88, idx.toNat), (83, 83, x.rxInv.toNat), (82, 82, x.txInv.toNat), (81, 81, x.txCtl.toNat),
    (63, 56, tap x.cPre), (55, 48, tap x.cMain), (47, 40, tap x.cPost), (31, 16, timeoutOf mode x)]

def execLaneCfgGet (sub : Sub) (port : Handle) (lane : BitVec 3) (s : State) : Host.Outcome State Fault Refusal :=
  .next (runCommand Cat.laneCfgGet sub (pack 384 [(31, 0, port.toNat), (34, 32, lane.toNat)])
    { bad := fun s => badLaneIdx s port lane
      doms := laneDoms port
      act := fun s => .ok (laneCfg s port lane) s } s)

/-- LANE_ADAPT_CTL (R52). Neither R52 nor Table 2.4 says what RESTART does on a port whose lanes are not in ALIGN or UP: OK, with
no effect (assumption 79). -/
def adaptAct (h : Handle) (idx : BitVec 3) (action : BitVec 2) (s : State) : Res :=
  let l := laneNamed h idx
  let live := (s.lane l).state == .align || (s.lane l).state == .up
  if action = 2 then .ok 0 (s.retrain (hPort h))
  else if !live then .fail .linkDown s
  else .ok 0 ((s.sampleLane l).modLane l (fun x => { x with adapt := if action = 0 then .frozen else .track, recoverNs := none }))

def execLaneAdaptCtl (sub : Sub) (port : Handle) (lane : BitVec 3) (action : BitVec 2) (s : State) :
    Host.Outcome State Fault Refusal :=
  .next (runCommand Cat.laneAdaptCtl sub (pack 384 [(31, 0, port.toNat), (34, 32, lane.toNat), (41, 40, action.toNat)])
    { bad := fun s => badLaneIdx s port lane || action == 3
      doms := laneDoms port
      act := adaptAct port lane action } s)

/-- LANE_RETIRE_CLEAR (R60). -/
def retireClear (h : Handle) (idx : BitVec 3) (s : State) : State :=
  let l := laneNamed h idx
  let s1 := s.modLane l (fun x => { x with retired := false })
  if (s.lane l).state == .retired then (s1.moveLane l .listen).tryTrain (hPort h) else s1

def execLaneRetireClear (sub : Sub) (port : Handle) (lane : BitVec 3) (s : State) : Host.Outcome State Fault Refusal :=
  .next (runCommand Cat.laneRetireClear sub (pack 384 [(31, 0, port.toNat), (34, 32, lane.toNat)])
    { bad := fun s => badLaneIdx s port lane
      doms := laneDoms port
      act := fun s => .ok 0 (retireClear port lane s) } s)

/-- LANE_SER_CFG (R59): the current windows of every lane that is UP start again. -/
def serCfg (p : Nat) (window : BitVec 14) (thresh : BitVec 24) (s : State) : State :=
  let s1 := s.modPort p (fun x => { x with serWindow := window.setWidth 16, serThresh := thresh })
  match s.port p with
  | none => s1
  | some x => foldNats (lanesOf p x) (fun a l =>
      if (a.lane l).state == .up then (a.sampleLane l).modLane l (Lane.endWindow 0 s.tbNs) else a) s1

def execLaneSerCfg (sub : Sub) (port : Handle) (window : BitVec 14) (thresh : BitVec 24) (s : State) :
    Host.Outcome State Fault Refusal :=
  .next (runCommand Cat.laneSerCfg sub (pack 384 [(31, 0, port.toNat), (45, 32, window.toNat), (87, 64, thresh.toNat)])
    { bad := fun _ => !inRange window.toNat 1 10000 || !inRange thresh.toNat 1 10000000
      doms := laneDoms port
      act := fun s => .ok 0 (serCfg (hPort port) window thresh s) } s)

/-! ### Lane tests (R44, R330) -/

/-- An NRZ lane mode. -/
def nrz (mode : Nat) : Bool := mode == 4 || mode == 5

/-- PATTERN and LOOP out of their encodings, or a PAM4 pattern on an NRZ lane. -/
def badTest (s : State) (h : Handle) (idx : BitVec 3) (pattern : BitVec 4) (loop : BitVec 2) : Bool :=
  badLaneIdx s h idx || decide (8 < pattern.toNat) || loop == 3 ||
  ((s.port (hPort h)).any (fun x => nrz (laneModeOf x.type)) && decide (6 ≤ pattern.toNat))

/-- LANE_TEST_CTL (R44). The manual does not say what a start does on a lane that is in TEST: the test starts anew with the
command's parameters, in ACQUIRE and with its count at 0 (assumption 79). -/
def laneTestAct (h : Handle) (idx : BitVec 3) (start : Bool) (t : LaneTest) (s : State) : Res :=
  let p := hPort h
  let l := laneNamed h idx
  if (s.port p).any (fun x => x.enabled) then .fail .badMode s
  else if !start then .ok 0 (s.stopTest p l)
  else
    let s1 := s.takeVote (20 + p / 64) (testVote s p)
    .ok 0 ((s1.sampleLane l).modLane l (fun x => { Lane.move .test x with test := some t, corr := 0 }))

def execLaneTestCtl (sub : Sub) (port : Handle) (lane : BitVec 3) (start : BitVec 1) (pattern : BitVec 4) (loop : BitVec 2)
    (genEn chkEn : BitVec 1) (s : State) : Host.Outcome State Fault Refusal :=
  .next (runCommand Cat.laneTestCtl sub
    (pack 384 [(31, 0, port.toNat), (34, 32, lane.toNat), (40, 40, start.toNat), (44, 41, pattern.toNat), (46, 45, loop.toNat),
      (47, 47, genEn.toNat), (48, 48, chkEn.toNat)])
    { bad := fun s => badTest s port lane pattern loop
      doms := laneDoms port
      act := laneTestAct port lane (start == 1)
        { pattern := pattern, loop := loop, genEn := genEn == 1, chkEn := chkEn == 1, acquired := false } } s)

/-! ### Eye-scan commands -/

/-- The chiplet of a lane, and its scans that run or wait for their event's room (R65, R303). -/
def chipletScans (s : State) (c : Nat) : List (Nat × Scan) :=
  s.lanes.filterMap (fun e => if e.1 / 128 = c then e.2.scan.map (fun x => (e.1, x)) else none)

/-- A value out of range in Table 2.11. -/
def badEye (s : State) (h : Handle) (idx : BitVec 3) (p : BitVec 256) : Bool :=
  let vMin := eyeSigned p 111 104
  let vMax := eyeSigned p 103 96
  let pMin := eyeSigned p 87 80
  let pMax := eyeSigned p 79 72
  badLaneIdx s h idx || misaligned (BitVec.ofNat 64 (fld p 255 192)) || fld p 119 118 == 3 ||
  ((s.port (hPort h)).any (fun x => nrz (laneModeOf x.type)) && fld p 119 118 != 1) || !inRange (fld p 117 112) 16 40 ||
  vMin == -128 || vMax == -128 || !inRange (fld p 95 88) 1 64 || !inRange (fld p 71 64) 1 64 ||
  decide (pMin < -64) || decide (64 < pMin) || decide (pMax < -64) || decide (64 < pMax) || decide (vMax < vMin) ||
  decide (pMax < pMin) || decide (fld p 191 160 < 64 + 8 * eyePoints p)

/-- A SCAN_ID that no scan of the chiplet has: the free value drawn, or the first above it that is not taken. -/
def freshScanId (taken : List (BitVec 16)) : Nat → BitVec 16 → BitVec 16
  | 0, i => i
  | n + 1, i => if taken.contains i then freshScanId taken n (i + 1) else i

/-- EYE_SCAN_START (R65). -/
def eyeStartAct (queue : QueueNo) (h : Handle) (idx : BitVec 3) (p : BitVec 256) (s : State) : Res :=
  let l := laneNamed h idx
  let scans := chipletScans s (l / 128)
  if !scannable (s.lane l).state then .fail .linkDown s
  else if (s.lane l).scan.isSome then .fail .busy s
  else if 16 ≤ scans.length then .fail .noRoom s
  else
    let id := freshScanId (scans.map (fun e => e.2.id)) 16 (s.free 16)
    let y : Scan :=
      { id := id, queue := queue, port := h, laneIdx := idx, param := p
        v := eyeSigned p 103 96, p := eyeSigned p 87 80, points := 0, startTime := s.now
        endTime := (s.drawn).free 128, recover := (s.lane l).adapt == .recover, done := none }
    .ok id.toNat ((s.modLane l (fun x => { x with scan := some y })).drawn.drawn)

def execEyeScanStart (sub : Sub) (buf : Addr) (bufLen : BitVec 32) (port : Handle) (lane : BitVec 3) (eye : BitVec 2)
    (dwellExp : BitVec 6) (vMin vMax vStep pMin pMax pStep : BitVec 8) (errStop : BitVec 32) (s : State) :
    Host.Outcome State Fault Refusal :=
  let p : BitVec 256 := pack 256 [(255, 192, buf.toNat), (191, 160, bufLen.toNat), (159, 128, port.toNat), (122, 120, lane.toNat),
    (119, 118, eye.toNat), (117, 112, dwellExp.toNat), (111, 104, vMin.toNat), (103, 96, vMax.toNat), (95, 88, vStep.toNat),
    (87, 80, pMin.toNat), (79, 72, pMax.toNat), (71, 64, pStep.toNat), (63, 32, errStop.toNat)]
  .next (runCommand Cat.eyeScanStart sub (p.setWidth 384)
    { bad := fun s => badEye s port lane p
      doms := laneDoms port
      act := eyeStartAct sub.queue port lane p } s)

/-- The lane on which a SCAN_ID runs in the chiplet of a port's lanes. -/
def findScan (s : State) (h : Handle) (id : BitVec 16) : Option (Nat × Scan) :=
  (chipletScans s (hPort h / 128)).find? (fun e => e.2.id == id && e.2.done.isNone)

/-- EYE_SCAN_STATUS; OUTCOME of a running scan is not valid: a free value. -/
def eyeStatusAct (h : Handle) (id : BitVec 16) (s : State) : Res :=
  match findScan s h id with
  | none => .fail .notFound s
  | some e => .ok (pack 384 [(31, 0, e.2.points), (39, 32, (s.free 8).toNat), (40, 40, 1)]) s.drawn

def execEyeScanStatus (sub : Sub) (port : Handle) (scanId : BitVec 16) (s : State) : Host.Outcome State Fault Refusal :=
  .next (runCommand Cat.eyeScanStatus sub (pack 384 [(31, 0, port.toNat), (47, 32, scanId.toNat)])
    { doms := laneDoms port, act := eyeStatusAct port scanId } s)

def eyeAbortAct (h : Handle) (id : BitVec 16) (s : State) : Res :=
  match findScan s h id with
  | none => .fail .notFound s
  | some e => .ok 0 (s.endScan e.1 0x01)

def execEyeScanAbort (sub : Sub) (port : Handle) (scanId : BitVec 16) (s : State) : Host.Outcome State Fault Refusal :=
  .next (runCommand Cat.eyeScanAbort sub (pack 384 [(31, 0, port.toNat), (47, 32, scanId.toNat)])
    { doms := laneDoms port, act := eyeAbortAct port scanId } s)

/-- The entry of Table 2.13. -/
def eyeEntry (x : Scan) (errors compared : Nat) : BitVec 64 :=
  pack 64 [(63, 63, (decide (0x3FFFFFFF < errors)).toNat), (62, 62, x.recover.toNat), (61, 32, sat 30 errors),
    (31, 0, sat 32 (compared / 512))]

/-- EYE_SCAN_POINT_DONE (R66): the point's entry, and after the last point the header and the event. A scan whose event
waits posts it when there is room. -/
def eyePoint (l errors compared : Nat) (s : State) : State :=
  match (s.lane l).scan with
  | none => s
  | some x =>
    match x.done with
    | some o => s.postScan l x o
    | none =>
      let s1 := s.emit (.dma (BitVec.ofNat 64 (fld x.param 255 192 + 64 + 8 * x.points)) (leBytes 8 (eyeEntry x errors compared).toNat))
      let y := { x with points := x.points + 1, endTime := s.now, recover := (s.lane l).adapt == .recover }
      match eyeNext x.param x.v x.p with
      | some n => s1.modLane l (fun z => { z with scan := some { y with v := n.1, p := n.2 } })
      | none => (s1.modLane l (fun z => { z with scan := some y })).endScan l 0x00

def execEyeScanPointDone (lane : LaneNo) (errors compared : Nat) (s : State) : Host.Outcome State Fault Refusal :=
  .next (eyePoint lane.toNat errors compared s)

end Sys2Proof.Machine
end

