-- ==== Sys2Proof/Machine/Tables.lean ====
section
/-! DEFINITION. The tables (R120 to R142): HOST with its hash, relocation and stash, the LPM, the Table Access Window,
learning and aging, and parity repair. -/

namespace Sys2Proof.Machine

/-- Update of the tables. -/
def State.modTables (s : State) (f : TableState → TableState) : State := { s with tables := f s.tables }

/-! ### HOST entries (Table 5.11) -/

/-- HIT set in every copy present. -/
def hitAll (s : State) : BitVec 4 := BitVec.ofNat 4 (if s.fuses.member = 2 then 3 else 15)

/-- Exclusive-OR of 16 bits. -/
def xor16 (v : Nat) : Nat := popCount 16 v % 2

/-- PARITY of an entry whose bits [7:0] are 0. -/
def entryParity (e : BitVec 128) : Nat :=
  (List.range 8).foldl (fun a k => a + xor16 (fld e (16 * k + 15) (16 * k)) * 2 ^ k) 0

/-- An entry as the copy of quadrant q stores it. -/
def hostView (x : HostSlot) (q : Nat) : BitVec 128 :=
  let e := setFld x.entry 121 121 (if fld x.entry 127 125 = 4 then 0 else (bitAt x.hit q).toNat)
  setFld e 7 0 (entryParity e)

def hType4 (e : BitVec 128) : Nat := fld e 127 125

/-- A HOST key: its type and its number (L2: VLAN and MAC; else the address). -/
structure HKey where
  typ : Nat
  val : Nat
deriving DecidableEq, Repr

/-- The key of the entry at a location; `none` for a tail. -/
def keyAt (t : Tbl HostSlot) (loc : Nat) (x : HostSlot) : Option HKey :=
  match hType4 x.entry with
  | 1 => some { typ := 1, val := fld x.entry 119 60 }
  | 2 => some { typ := 2, val := fld x.entry 119 88 }
  | 3 => match Map.find t (loc + 1) with
    | some y => some { typ := 3, val := fld x.entry 119 8 * 65536 + fld y.entry 119 104 }
    | none => none
  | _ => none

/-- The location and entry of a key. -/
def hostFind (t : Tbl HostSlot) (k : HKey) : Option (Nat × HostSlot) := t.find? (fun e => keyAt t e.1 e.2 == some k)

/-- Slots of the table proper, and of the stash (R128). -/
def hostSlots : Nat := 2097152

/-- H of a key, the candidate buckets' first locations in way order, and the owner's quadrant (R128, R130). -/
def hashOf (s : State) (k : HKey) : BitVec 128 := Config.hostHash s.dev.hostKey k.typ k.val
def buckets (s : State) (k : HKey) : List Nat :=
  (List.range 4).map (fun w => 524288 * w + 4 * fld (hashOf s k) (17 * w + 16) (17 * w))
def ownerOf (s : State) (k : HKey) : Nat :=
  if s.fuses.member = 2 then fld (hashOf s k) 127 127 else fld (hashOf s k) 127 126

/-- A slot that its owner may use: free and not retired (R345). -/
def slotUsable (s : State) (loc : Nat) : Bool :=
  (Map.find s.tables.host loc).isNone && !s.dev.retired.any (fun r => r.1.toNat / 4096 == 2 && r.1.toNat % 256 == 0x0B && r.2 == loc)

/-- Room for an entry of a width at a location. -/
def roomAt (s : State) (wide : Bool) (loc : Nat) : Bool := slotUsable s loc && (!wide || slotUsable s (loc + 1))

/-- Where an entry may stand in a bucket (R129). -/
def bucketSlots (wide : Bool) (b : Nat) : List Nat := if wide then [b, b + 2] else [b, b + 1, b + 2, b + 3]

/-- The first free place in a candidate bucket, lowest way first. -/
def freePlace (s : State) (k : HKey) : Option Nat :=
  ((buckets s k).flatMap (bucketSlots (k.typ == 3))).find? (roomAt s (k.typ == 3))

/-- The first free place in the stash. -/
def stashPlace (s : State) (wide : Bool) : Option Nat :=
  ((List.range (if wide then 1023 else 1024)).map (hostSlots + ·)).find? (roomAt s wide)

/-- Entries in a HOST table, the stash's among them, IPv6 pairs counted once. -/
def hostCount (t : Tbl HostSlot) : Nat := t.countP (fun e => hType4 e.2.entry != 4)
def stashCount (t : Tbl HostSlot) : Nat := t.countP (fun e => hType4 e.2.entry != 4 && decide (hostSlots ≤ e.1))

/-- HOST_STASH_HIGH at 896 entries, once until the stash has fallen below 768 (R130). -/
def State.stashLevel (s : State) : State :=
  let n := stashCount s.tables.host
  foldNats (quadsThere s) (fun a q =>
    if decide (896 ≤ n) && !(a.quad q).stashHigh then
      (a.modQuad q (fun x => { x with stashHigh := true })).raise (0x200B + 0x100 * q) 0x064 0 1 q
    else if n < 768 then a.modQuad q (fun x => { x with stashHigh := false })
    else a) s

/-- A HOST slot written, and cleared. -/
def State.setHost (s : State) (loc : Nat) (x : HostSlot) : State :=
  s.modTables (fun t => { t with host := Map.ins t.host loc x })
def State.clearHost (s : State) (loc : Nat) : State := s.modTables (fun t => { t with host := Map.del t.host loc })

/-- Update of a listed HOST slot. -/
def State.modHost (s : State) (loc : Nat) (f : HostSlot → HostSlot) : State :=
  s.modTables (fun t => { t with host := Map.adjust t.host loc f })

/-- An entry and its tail removed. -/
def State.dropEntry (s : State) (loc : Nat) : State :=
  match Map.find s.tables.host loc with
  | none => s
  | some x => let s1 := s.clearHost loc; if hType4 x.entry = 3 then s1.clearHost (loc + 1) else s1

/-- `procedure relocate` of R131: the copy carries TAG + 1 and the original's HIT. -/
def State.relocate (s : State) (src dst : Nat) : State :=
  match Map.find s.tables.host src with
  | none => s
  | some x =>
    let c := { x with entry := setFld x.entry 124 123 (fld x.entry 124 123 + 1) }
    let s1 := (s.dropEntry src).setHost dst c
    let s2 := match hType4 x.entry, Map.find s.tables.host (src + 1) with
      | 3, some y => s1.setHost (dst + 1) y
      | _, _ => s1
    s2.modTables (fun t => { t with relocs := t.relocs + 1 })

/-- One relocation is possible: an entry moves to a free place in one of its own buckets. -/
def mayMove (s : State) (src dst : Nat) : Bool :=
  match Map.find s.tables.host src with
  | none => false
  | some x => match keyAt s.tables.host src x with
    | none => false
    | some k => ((buckets s k).flatMap (bucketSlots (k.typ == 3))).contains dst && roomAt s (k.typ == 3) dst

/-- The relocations of a chain, in order, as far as they are possible. -/
def State.runChain (s : State) : List (Nat × Nat) → State
  | [] => s
  | (a, b) :: r => if mayMove s a b then State.runChain (s.relocate a b) r else s

/-- Stash entries whose candidate bucket has room move back (R130). -/
def State.settleStash (s : State) : State :=
  let locs := (s.tables.host.filter (fun e => decide (hostSlots ≤ e.1) && hType4 e.2.entry != 4)).map (·.1)
  (foldNats locs (fun a loc =>
    match (Map.find a.tables.host loc).bind (keyAt a.tables.host loc) with
    | none => a
    | some k => match freePlace a k with
      | some d => a.relocate loc d
      | none => a) s).stashLevel

/-- An entry written at a place: its head and, for IPv6, its tail. -/
def State.place (s : State) (loc : Nat) (head : HostSlot) (tail : BitVec 128) : State :=
  let s1 := s.setHost loc head
  if hType4 head.entry = 3 then s1.setHost (loc + 1) { entry := tail, hit := 0 } else s1

/-- An insertion by the owner (R130): the location, or `none` for NO_ROOM. An entry updated in place keeps its TAG. -/
def State.insertHost (s : State) (k : HKey) (head : HostSlot) (tail : BitVec 128) : State × Option Nat :=
  match hostFind s.tables.host k with
  | some (loc, old) =>
    (s.place loc { head with entry := setFld head.entry 124 123 (fld old.entry 124 123) } tail, some loc)
  | none => match freePlace s k with
    | some loc => (s.place loc head tail, some loc)
    | none =>
      let s1 := (s.runChain ((Config.relocChain s.draws).take 3)).drawn
      match freePlace s1 k with
      | some loc => (s1.place loc head tail, some loc)
      | none => match stashPlace s (k.typ == 3) with
        | some loc => ((s.drawn.place loc head tail).stashLevel, some loc)
        | none => (s.drawn, none)

/-- A key removed. -/
def State.removeHost (s : State) (loc : Nat) : State := (s.dropEntry loc).settleStash

/-- STATIC, DEST_MC and DEST of an L2 entry; FROZEN and MOVE_CNT. -/
def isStatic (x : HostSlot) : Bool := bitAt x.entry 122
def destMc (x : HostSlot) : Bool := bitAt x.entry 59
def destOf (x : HostSlot) : Nat := fld x.entry 58 43
def frozen (x : HostSlot) : Bool := bitAt x.entry 120
def moveCnt (x : HostSlot) : Nat := fld x.entry 42 39

/-- The port that a learn event names for an entry: 0 for one that names a group (Table 5.14). -/
def eventPort (x : HostSlot) : Nat := if destMc x then 0 else destOf x % 1024

/-- An L2 entry that names a port. -/
def onPort (p : Nat) (x : HostSlot) : Bool := hType4 x.entry == 1 && !destMc x && destOf x == p

/-- Learned entries of a port: L2, not static (R75, R138). -/
def learnedOn (s : State) (p : Nat) : Nat := s.tables.host.countP (fun e => onPort p e.2 && !isStatic e.2)

/-- L2 entries of a port removed (R88, R136): any VLAN for 0xFFF, static ones on request. The number removed. -/
def State.flushHost (s : State) (p vlan : Nat) (withStatic : Bool) : State × Nat :=
  let gone := s.tables.host.filter (fun e =>
    onPort p e.2 && (withStatic || !isStatic e.2) && (vlan == 0xFFF || fld e.2.entry 119 108 == vlan))
  ((foldNats (gone.map (·.1)) (fun a loc => a.dropEntry loc) s).settleStash, gone.length)

/-! ### HOST_ADD and HOST_DELETE (R129, R134) -/

/-- RES_KIND and RES_INDEX that a routed result refuses. -/
def badResult (kind index : Nat) : Bool := (kind == 1 && decide (4095 < index)) || (decide (2 ≤ kind) && index != 0)

/-- An ENTRY that HOST_ADD refuses with BAD_PARAM. -/
def badHostEntry (e : BitVec 256) : Bool :=
  let h : BitVec 128 := e.setWidth 128
  let t : BitVec 128 := BitVec.ofNat 128 (fld e 255 128)
  let common := fld h 124 123 != 0 || fld h 121 120 != 0 || fld h 7 0 != 0
  match hType4 h with
  | 1 => common || t != 0 || fld h 38 8 != 0 || moveCnt { entry := h, hit := 0 } != 0 || (!bitAt h 59 && fld h 58 53 != 0)
  | 2 => common || t != 0 || fld h 69 8 != 0 || badResult (fld h 87 86) (fld h 85 70)
  | 3 => common || hType4 t != 4 || fld t 124 120 != 0 || fld t 85 8 != 0 || fld t 7 0 != 0 ||
    badResult (fld t 103 102) (fld t 101 86)
  | _ => true

/-- The key that an ENTRY carries. -/
def entryKey (e : BitVec 256) : HKey :=
  let h : BitVec 128 := e.setWidth 128
  match hType4 h with
  | 1 => { typ := 1, val := fld h 119 60 }
  | 2 => { typ := 2, val := fld h 119 88 }
  | _ => { typ := 3, val := fld h 119 8 * 65536 + fld e 247 232 }

def hostAddAct (e : BitVec 256) (s : State) : Res :=
  let h : BitVec 128 := e.setWidth 128
  let slot : HostSlot := { entry := h, hit := if bitAt h 122 then 0 else hitAll s }
  match s.insertHost (entryKey e) slot (BitVec.ofNat 128 (fld e 255 128)) with
  | (t, some loc) => .ok (BitVec.ofNat 384 loc) t
  | (_, none) => .fail .noRoom s.drawn

def execHostAdd (sub : Sub) (entry : BitVec 256) (s : State) : Host.Outcome State Fault Refusal :=
  .next (runCommand Cat.hostAdd sub (entry.setWidth 384) { bad := fun _ => badHostEntry entry, act := hostAddAct entry } s)

/-- A KEY of HOST layout (Table 12.5): its bits that no key uses must be 0. -/
def hostKeyOf {n : Nat} (k : BitVec n) : Option HKey :=
  match fld k 2 0 with
  | 1 => if k.toNat < 2 ^ 63 then some { typ := 1, val := fld k 14 3 * 2 ^ 48 + fld k 62 15 } else none
  | 2 => if k.toNat < 2 ^ 35 then some { typ := 2, val := fld k 34 3 } else none
  | 3 => if k.toNat < 2 ^ 131 then some { typ := 3, val := fld k 130 3 } else none
  | _ => none

def hostDeleteAct (key : BitVec 192) (s : State) : Res :=
  match hostKeyOf key with
  | none => .fail .badParam s
  | some k => match hostFind s.tables.host k with
    | none => .fail .notFound s
    | some e => .ok 0 (s.removeHost e.1)

def execHostDelete (sub : Sub) (key : BitVec 192) (s : State) : Host.Outcome State Fault Refusal :=
  .next (runCommand Cat.hostDelete sub (key.setWidth 384)
    { bad := fun _ => (hostKeyOf key).isNone, act := hostDeleteAct key } s)

/-! ### LPM (R132) -/

/-- Address bits of a family, the index of a route, and its table. -/
def lpmBits (v6 : Bool) : Nat := if v6 then 128 else 32
def lpmKey (addr len : Nat) : Nat := 256 * addr + len
def lpmTable (s : State) (v6 : Bool) : Tbl LpmRoute := if v6 then s.tables.lpm6 else s.tables.lpm4
def State.setLpm (s : State) (v6 : Bool) (t : Tbl LpmRoute) : State :=
  s.modTables (fun x => if v6 then { x with lpm6 := t } else { x with lpm4 := t })

/-- The location index of a new route: the first that no route has, from where its key falls. -/
def lpmPlace (t : Tbl LpmRoute) (v6 : Bool) (k : Nat) : BitVec 26 :=
  (((List.range (t.length + 1)).map (fun n => Config.lpmLoc v6 k + BitVec.ofNat 26 n)).find? (fun l =>
    t.all (fun e => e.2.loc != l))).getD 0

/-- A route added, or its result replaced. -/
def lpmPut (t : Tbl LpmRoute) (v6 : Bool) (k : Nat) (res : BitVec 18) : Tbl LpmRoute :=
  Map.ins t k { result := res, loc := match Map.find t k with
    | some e => e.loc
    | none => lpmPlace t v6 k }

/-- The longest prefix of an address, from LEN down. -/
def lpmLookup (t : Tbl LpmRoute) (bits addr : Nat) : Nat → Option LpmRoute
  | 0 => Map.find t (lpmKey 0 0)
  | n + 1 =>
    match Map.find t (lpmKey (addr / 2 ^ (bits - (n + 1)) * 2 ^ (bits - (n + 1))) (n + 1)) with
    | some r => some r
    | none => lpmLookup t bits addr n

/-- A KEY of LPM layout: LEN in range, unused address bits 0. -/
def lpmKeyOk (v6 : Bool) {n : Nat} (k : BitVec n) : Bool :=
  let len := fld k 7 0
  let w := lpmBits v6
  decide (k.toNat < 2 ^ (8 + w)) && decide (len ≤ w) && fld k (7 + w) 8 % 2 ^ (w - len) == 0

/-- Table ID and family of an LPM command. -/
def lpmTab (tab : BitVec 8) : Option Bool := if tab = 2 then some false else if tab = 3 then some true else none

/-- Routes may still be added under the shared limit (R132). -/
def lpmRoom (s : State) (v6 : Bool) : Bool :=
  decide (s.tables.lpm4.length + 2 * s.tables.lpm6.length + (if v6 then 2 else 1) ≤ 2097152)

def lpmAddAct (v6 : Bool) (key : BitVec 136) (res : BitVec 18) (s : State) : Res :=
  let k := lpmKey (fld key 135 8) (fld key 7 0)
  let t := lpmTable s v6
  if (Map.find t k).isNone && !lpmRoom s v6 then .fail .noRoom s else .ok 0 (s.setLpm v6 (lpmPut t v6 k res))

def lpmDelAct (v6 : Bool) (key : BitVec 136) (s : State) : Res :=
  let k := lpmKey (fld key 135 8) (fld key 7 0)
  let t := lpmTable s v6
  if (Map.find t k).isNone then .fail .notFound s else .ok 0 (s.setLpm v6 (Map.del t k))

/-- What makes an LPM command BAD_PARAM. -/
def badLpm (tab : BitVec 8) (key : BitVec 136) (kind : BitVec 2) (index : BitVec 16) (add : Bool) : Bool :=
  match lpmTab tab with
  | none => true
  | some v6 => !lpmKeyOk v6 key || (if add then badResult kind.toNat index.toNat else kind != 0 || index != 0)

def execLpmAdd (sub : Sub) (key : BitVec 136) (resKind : BitVec 2) (resIndex : BitVec 16) (tabId : BitVec 8) (s : State) :
    Host.Outcome State Fault Refusal :=
  .next (runCommand Cat.lpmAdd sub
    (pack 384 [(135, 0, key.toNat), (137, 136, resKind.toNat), (153, 138, resIndex.toNat), (167, 160, tabId.toNat)])
    { bad := fun _ => badLpm tabId key resKind resIndex true
      act := lpmAddAct (tabId == 3) key (resKind ++ resIndex) } s)

def execLpmDelete (sub : Sub) (key : BitVec 136) (resKind : BitVec 2) (resIndex : BitVec 16) (tabId : BitVec 8) (s : State) :
    Host.Outcome State Fault Refusal :=
  .next (runCommand Cat.lpmDelete sub
    (pack 384 [(135, 0, key.toNat), (137, 136, resKind.toNat), (153, 138, resIndex.toNat), (167, 160, tabId.toNat)])
    { bad := fun _ => badLpm tabId key resKind resIndex false
      act := lpmDelAct (tabId == 3) key } s)

/-! ### Learning (R137 to R141) -/

/-- LEARN_CFG fields (Table 5.13). -/
def learnCfg (s : State) (hi lo : Nat) : Nat := fld s.tables.learnCfg hi lo

/-- LEARN_CFG in force. A new MOVE_WINDOW or AGE_TIME counts from the next whole multiple of the new period (R140, Table 5.13). -/
def State.setLearn (s : State) (v : BitVec 64) : State :=
  let window := fld v 43 32 != learnCfg s 43 32
  let age := fld v 63 44 != learnCfg s 63 44
  s.modTables (fun t => { t with
    learnCfg := v, moveMark := if window then s.time.dev else t.moveMark, ageMark := if age then s.tbNs else t.ageMark })

/-- Kinds of learn events (Table 5.14). -/
inductive LearnKind where
  | new | move | aged | frozen | unfrozen | noRoom
deriving DecidableEq, Repr

def learnKindCode : LearnKind → Nat
  | .new => 1 | .move => 2 | .aged => 3 | .frozen => 4 | .unfrozen => 5 | .noRoom => 6

/-- A learn event. -/
def State.postLearn (s : State) (k : LearnKind) (vlan mac old new : Nat) : State :=
  s.postDropped (learnCfg s 15 0) 1 0 (fun dropped => pack 320
    [(319, 192, s.now.toNat), (191, 184, learnKindCode k), (183, 172, vlan), (159, 112, mac), (111, 102, old), (101, 92, new),
     (63, 0, dropped)])

/-- LEARN_LIMIT of a port, and whether one more entry may be learned on it (R75). -/
def mayLearn (s : State) (p : Nat) : Bool :=
  match s.port p with
  | none => false
  | some x => decide (learnedOn s p < fld x.cfg 31 16)

/-- A learned L2 entry. -/
def l2Entry (vlan mac p : Nat) : BitVec 128 := pack 128 [(127, 125, 1), (119, 108, vlan), (107, 60, mac), (58, 43, p)]

/-- The learn engine inserts a new address (R138). -/
def State.learnNew (s : State) (q : Nat) (r : LearnReq) : State :=
  let p := r.port.toNat
  if !mayLearn s p then s.countPort p 39 1
  else
    match s.insertHost { typ := 1, val := r.vlan.toNat * 2 ^ 48 + r.mac.toNat }
        { entry := l2Entry r.vlan.toNat r.mac.toNat p, hit := hitAll s } 0 with
    | (t, some _) => (t.countQuad q 16 1).postLearn .new r.vlan.toNat r.mac.toNat 0 p
    | (t, none) => (t.countQuad q 20 1).postLearn .noRoom r.vlan.toNat r.mac.toNat 0 p

/-- A station move (R139). -/
def State.learnMove (s : State) (q loc : Nat) (x : HostSlot) (r : LearnReq) : State :=
  let p := r.port.toNat
  let old := eventPort x
  if !mayLearn s p then s.countPort p 39 1
  else if learnCfg s 31 28 < moveCnt x + 1 then
    (((s.modHost loc (fun y => { y with entry := setFld (setFld y.entry 120 120 1) 42 39 (learnCfg s 27 24) })).countQuad q 19 1).raise
      (0x200A + 0x100 * q) 0x065 0 1 loc).postLearn .frozen r.vlan.toNat r.mac.toNat old 0
  else
    ((s.modHost loc (fun y => { entry := setFld (setFld (setFld y.entry 59 59 0) 58 43 p) 42 39 (moveCnt y + 1), hit := hitAll s })).countQuad
      q 17 1).postLearn .move r.vlan.toNat r.mac.toNat old p

/-- LEARN_REQUEST (R138): the owner serves the oldest request; one that the table satisfies is discarded. -/
def serveLearn (q : Nat) (s : State) : State :=
  match (s.quad q).learnQ with
  | [] => s
  | r :: rest =>
    if s.mode ≠ .run then s
    else
      let s1 := s.modQuad q (fun x => { x with learnQ := rest })
      if (s1.port r.port.toNat).isNone then s1
      else
        match hostFind s1.tables.host { typ := 1, val := r.vlan.toNat * 2 ^ 48 + r.mac.toNat } with
        | none => s1.learnNew q r
        | some (loc, x) =>
          if isStatic x || frozen x || onPort r.port.toNat x then s1 else s1.learnMove q loc x r

def execLearnRequest (q : QuadNo) (s : State) : Host.Outcome State Fault Refusal := .next (serveLearn q.toNat s)

/-- The next whole multiple of a period after a mark, once it has been reached; a period of 0 has none. -/
def nextMultiple (period mark now : Nat) : Option Nat :=
  if period = 0 ∨ now / period ≤ mark / period then none else some ((mark / period + 1) * period)

/-- The MOVE_WINDOW boundary and the age sweep that are due (R139, R140). -/
def windowDue (s : State) : Option Nat := nextMultiple (nsUnit * (1000000 * learnCfg s 43 32)) s.tables.moveMark s.time.dev
def ageDue (s : State) : Option Nat := nextMultiple (500000000 * learnCfg s 63 44) s.tables.ageMark s.tbNs

/-- MOVE_WINDOW_BOUNDARY (R139), in RUN: the entries at the oldest boundary that has been reached and not passed. -/
def moveBoundary (s : State) : State :=
  match windowDue s with
  | none => s
  | some mark =>
  if s.mode ≠ .run then s
  else
    s.tables.host.foldl (fun a e =>
      let x := e.2
      if hType4 x.entry != 1 then a
      else if !frozen x then a.modHost e.1 (fun y => { y with entry := setFld y.entry 42 39 0 })
      else if moveCnt x ≤ 1 then
        (a.modHost e.1 (fun y => { y with entry := setFld (setFld y.entry 120 120 0) 42 39 0 })).postLearn .unfrozen
          (fld x.entry 119 108) (fld x.entry 107 60) (eventPort x) 0
      else a.modHost e.1 (fun y => { y with entry := setFld y.entry 42 39 (moveCnt y - 1) }))
      (s.modTables (fun t => { t with moveMark := mark }))

def execMoveWindowBoundary (s : State) : Host.Outcome State Fault Refusal := .next (moveBoundary s)

/-- AGE_SWEEP (R140), in RUN, once a multiple of AGE_TIME ÷ 2 has been reached: learned entries with no HIT are removed, every
other HIT is cleared. -/
def ageAll (s : State) : State :=
  match ageDue s with
  | none => s
  | some mark =>
  if s.mode ≠ .run then s
  else
    (s.tables.host.foldl (fun a e =>
      let x := e.2
      if hType4 x.entry != 1 || isStatic x then a
      else if x.hit = 0 then
        ((a.dropEntry e.1).countQuad (ownerOf s { typ := 1, val := fld x.entry 119 60 }) 18 1).postLearn .aged
          (fld x.entry 119 108) (fld x.entry 107 60) (eventPort x) 0
      else a.modHost e.1 (fun y => { y with hit := 0 })) (s.modTables (fun t => { t with ageMark := mark }))).settleStash

def execAgeSweep (s : State) : Host.Outcome State Fault Refusal := .next (ageAll s)

/-! ### Policers and shapers as table entries (R205, R206, R212, R213) -/

/-- Bytes that a rate in kb/s gives in some ns, in 2^-16 byte. -/
def gained (kbps dt : Nat) : Nat := kbps * dt * 65536 / 8000000

/-- A policer whose buckets have refilled up to now (R206). -/
def Policer.refill (p : Policer) (now : Nat) : Policer :=
  let dt := now - p.lastNs
  let cbs := 65536 * fld p.entry 127 104
  let epbs := 65536 * fld p.entry 103 80
  if bitAt p.entry 254 then
    { p with tc := min (p.tc + gained (fld p.entry 191 160) dt) cbs, tep := min (p.tep + gained (fld p.entry 159 128) dt) epbs
             lastNs := now }
  else
    let tc := p.tc + gained (fld p.entry 191 160) dt
    { p with tc := min tc cbs, tep := min (p.tep + (tc - cbs)) epbs, lastNs := now }

/-- A policer with full buckets. -/
def Policer.full (e : BitVec 256) (now : Nat) : Policer :=
  { entry := e, tc := 65536 * fld e 127 104, tep := 65536 * fld e 103 80, lastNs := now }

/-- A POLICER entry that a WRITE refuses (R205). -/
def badPolicer (e : BitVec 256) : Bool :=
  let rateBad := fun (r : Nat) => r != 0 && !inRange r 1000 1600000000
  let cir := fld e 191 160
  let epir := fld e 159 128
  (bitAt e 255 && (rateBad cir || rateBad epir)) || (bitAt e 254 && decide (epir < cir)) || (!bitAt e 254 && epir != 0) ||
  fld e 252 251 == 3 || fld e 250 249 == 3 || fld e 248 247 == 3 || fld e 222 192 != 0 || fld e 31 0 != 0

/-- Tokens of a shaper after a refill up to now, in 1/8,000,000 byte (R212). -/
def Shaper.refill (x : Shaper) (now : Nat) : Shaper :=
  { x with tokens := min (x.tokens + (fld x.entry 95 64 * (now - x.lastNs) : Nat)) (8000000 * fld x.entry 119 96 : Nat), lastNs := now }

/-- A shaper at its reset level (R213). -/
def Shaper.start (e : BitVec 128) (now : Nat) : Shaper :=
  { entry := e, tokens := if bitAt e 126 then (8000000 * fld e 119 96 : Nat) else 0, lastNs := now }

/-- A SHAPER entry that a WRITE refuses (R212). -/
def badShaper (e : BitVec 128) : Bool :=
  bitAt e 127 && (!inRange (fld e 119 96) 256 16777215 || !inRange (fld e 95 64) 1000 1600000000 || fld e 125 120 != 0 ||
    fld e 63 32 != 0)

/-- The shaper at an index; an unlisted one is invalid and imposes no limit. -/
def State.shaper (s : State) (i : Nat) : Shaper := (Map.find s.tables.shaper i).getD { entry := 0, tokens := 0, lastNs := 0 }

/-- Whole bytes of a shaper's tokens, 32-bit signed, rounded down. -/
def wholeTokens (t : Int) : Nat := (BitVec.ofInt 32 (t / 8000000)).toNat

/-! ### The Table Access Window (R125 to R127) -/

/-- Words, entries and widths of the tables that the window reaches (Table 5.1). -/
def tawWidth (t : Nat) : Nat :=
  match t with
  | 0x10 => 32 | 0x11 => 128 | 0x12 => 128 | 0x13 => 512 | 0x14 => 32 | 0x15 => 64 | 0x16 => 256 | 0x17 => 128 | 0x18 => 512
  | 0x19 => 512 | 0x1A => 32 | _ => 0

def tawEntries (t : Nat) : Nat :=
  match t with
  | 0x10 => 1024 | 0x11 => 4096 | 0x12 => 65536 | 0x13 => 4096 | 0x14 => 65536 | 0x15 => 65536 | 0x16 => 524288
  | 0x17 => 140288 | 0x18 => 16384 | 0x19 => 16384 | 0x1A => 16384 | _ => 0

/-- The three ACL tables. -/
def isAcl (t : Nat) : Bool := t == 0x18 || t == 0x19 || t == 0x1A

/-- Slices that hold a shaper or are named by its index (Table 8.4). -/
def shaperSlices (i : Nat) : List Nat :=
  if i < 131072 then [i / 8192, voqPort i / 64]
  else if i < 139264 then [(i - 131072) / 8 / 64] else [(i - 139264) / 64]

/-- UNIT_ABSENT of the window: COPY or INDEX names an absent slice; for a READ, COPY an absent quadrant. -/
def tawAbsent (s : State) (op t copy i : Nat) : Bool :=
  if t == 0x10 then !sliceThere s (i / 64)
  else if inRange t 0x11 0x14 then op == 0 && !quadThere s copy
  else if t == 0x15 || isAcl t then !sliceThere s copy
  else if t == 0x16 then !sliceThere s (i / 32768)
  else !(shaperSlices i).all (sliceThere s)

/-- A value that a table refuses (Tables 5.2 to 5.5, R103, R205, R212). -/
def tawRefuses (t : Nat) (v : BitVec 512) : Bool :=
  if t == 0x10 then bitAt v 31 && (fld v 30 29 == 3 || !inRange (fld v 11 0) 1 4094)
  else if t == 0x11 then bitAt v 127 && fld v 124 123 == 3
  else if t == 0x12 then bitAt v 127 && !inRange (fld v 111 100) 1 4094
  else if t == 0x13 then decide (30 < fld v 485 480)
  else if t == 0x16 then badPolicer (v.setWidth 256)
  else if t == 0x17 then badShaper (v.setWidth 128)
  else if t == 0x1A then fld v 10 9 == 3 || fld v 4 0 != 0 || fld v 31 18 != 0
  else false

/-- The bits of an entry that are stored; reserved and RO bits read as 0 (R7, R8). -/
def tawMask (t : Nat) : Nat :=
  match t with
  | 0x10 => 0xF0000FFF
  | 0x11 => 0xF800_FFFF_FFFF_FFFF_FFFF_0000_0000_0000
  | 0x12 => 0x83FF_FFF0_FFFF_FFFF_FFFF_FFFF_FFFF_FFFF
  | 0x13 => 2 ^ 486 - 1
  | 0x14 => 0x8000FFFF
  | 0x15 => 2 ^ 64 - 1
  | 0x17 => 0xC0FF_FFFF_FFFF_FFFF_0000_0000_0000_0000
  | _ => 2 ^ 512 - 1

/-- The ACTIVE slot's visibility of an ACL entry. -/
def State.activeSlot (s : State) : Bool := s.vers.slot1.state == .active
def State.slotOf (s : State) (b : Bool) : VSlot := if b then s.vers.slot1 else s.vers.slot0
def AclEntry.vis (e : AclEntry) (b : Bool) : Bool := if b then e.vis1 else e.vis0
def AclEntry.free : AclEntry := { value := 0, mask := 0, action := 0, vis0 := false, vis1 := false }
def State.aclAt (s : State) (k : Nat) : AclEntry := Map.val s.tables.acl k AclEntry.free

/-- Staged changes of a slice (R114). -/
def stagedIn (g : Stage) (sl : Nat) : Nat := g.rules.countP (fun e => e.1 / 16384 == sl)
def stagedAt (g : Stage) (k : Nat) : StagedRule :=
  (Map.find g.rules k).getD { value := none, mask := none, action := none, delete := false }

/-- Rule adds of a slice in a set, and the slice's free entries (R114). -/
def stagedAdds (g : Stage) (sl : Nat) : Nat := g.rules.countP (fun e => e.1 / 16384 == sl && !e.2.delete)
def freeEntries (s : State) (sl : Nat) : Nat :=
  16384 - s.tables.acl.countP (fun e => e.1 / 16384 == sl && e.2.vis s.activeSlot)

/-- A staged write of one ACL table, or a staged deletion (R113, R127). -/
def stageRule (t : Nat) (del : Bool) (v : BitVec 512) (r : StagedRule) : StagedRule :=
  if del then { value := none, mask := none, action := none, delete := true }
  else if t == 0x18 then { r with value := some v, delete := false }
  else if t == 0x19 then { r with mask := some v, delete := false }
  else { r with action := some (v.setWidth 16), delete := false }

/-- An ACL change through the window: NO_STAGE, BUSY, IN_USE, VERSION_LIMIT, NO_ROOM, or staged (Table 5.9). -/
def tawAcl (t : Nat) (del : Bool) (k : Nat) (v : BitVec 512) (s : State) : State × Status :=
  match s.vers.stage with
  | none => (s, .noStage)
  | some g =>
    let visible := (s.aclAt k).vis s.activeSlot
    let known := (Map.find g.rules k).isSome
    if s.vers.commit.isSome then (s, .busy)
    else if !del && visible then (s, .inUse)
    else if !known && decide (16384 ≤ stagedIn g (k / 16384)) then (s, .versionLimit)
    else if !del && !known && decide (freeEntries s (k / 16384) < stagedAdds g (k / 16384) + 1) then (s, .noRoom)
    else
      let g1 := { g with rules := Map.ins g.rules k (stageRule t del v (stagedAt g k)) }
      ({ s with vers := { s.vers with stage := some g1 } }, .ok)

/-- A policer or shaper written whole (R205, R213). -/
def State.writePolicer (s : State) (i : Nat) (e : BitVec 256) : State :=
  let k := e &&& (BitVec.ofNat 256 (2 ^ 256 - 2 ^ 80))
  s.modTables (fun t => { t with
    policer := if k = 0 then Map.del t.policer i else Map.ins t.policer i (Policer.full k s.tbNs) })

def State.writeShaper (s : State) (i : Nat) (e : BitVec 128) : State :=
  let old := (s.shaper i).refill s.tbNs
  let sl := (shaperSlices i).headD 0
  let debt := if bitAt old.entry 127 && decide (old.tokens < 0) then (-(old.tokens / 8000000)).toNat else 0
  let s1 := s.modTables (fun t => { t with
    shaper := if e = 0 then Map.del t.shaper i else Map.ins t.shaper i (Shaper.start e s.tbNs) })
  (s1.countSlice sl 282 1).countSlice sl 283 debt

/-- An entry written whole in every copy (R126). -/
def State.writeTable (s : State) (t copy i : Nat) (v : BitVec 512) : State :=
  let w := v &&& BitVec.ofNat 512 (tawMask t)
  if t == 0x16 then s.writePolicer i (w.setWidth 256)
  else if t == 0x17 then s.writeShaper i (w.setWidth 128)
  else s.modTables (fun x =>
    if t == 0x10 then { x with portVlan := Map.put 0 x.portVlan i (w.setWidth 32) }
    else if t == 0x11 then { x with vlan := Map.put 0 x.vlan i (w.setWidth 128) }
    else if t == 0x12 then { x with nexthop := Map.put 0 x.nexthop i (w.setWidth 128) }
    else if t == 0x13 then { x with nhgroup := Map.put 0 x.nhgroup i w }
    else if t == 0x14 then { x with mcgroup := Map.put 0 x.mcgroup i (w.setWidth 32) }
    else { x with mcEgress := Map.put 0 x.mcEgress (65536 * copy + i) (w.setWidth 64) })

/-- An ACL entry as READ returns it: staged contents where a write is staged, else its live contents (R127). -/
def aclRead (s : State) (t k : Nat) : BitVec 512 :=
  let e := s.aclAt k
  let g := (s.vers.stage.bind (fun g => Map.find g.rules k)).getD { value := none, mask := none, action := none, delete := false }
  if t == 0x18 then g.value.getD e.value
  else if t == 0x19 then g.mask.getD e.mask
  else pack 512 [(17, 17, e.vis1.toNat), (16, 16, e.vis0.toNat), (15, 0, (g.action.getD e.action).toNat)]

/-- An entry as READ returns it. -/
def tawEntry (s : State) (t copy i : Nat) : BitVec 512 :=
  if t == 0x10 then (Map.val s.tables.portVlan i 0).setWidth 512
  else if t == 0x11 then (Map.val s.tables.vlan i 0).setWidth 512
  else if t == 0x12 then (Map.val s.tables.nexthop i 0).setWidth 512
  else if t == 0x13 then Map.val s.tables.nhgroup i 0
  else if t == 0x14 then (Map.val s.tables.mcgroup i 0).setWidth 512
  else if t == 0x15 then (Map.val s.tables.mcEgress (65536 * copy + i) 0).setWidth 512
  else if t == 0x16 then
    match Map.find s.tables.policer i with
    | none => 0
    | some p => let r := p.refill s.tbNs
                (setFld (setFld r.entry 79 56 (r.tc / 65536)) 55 32 (r.tep / 65536)).setWidth 512
  else if t == 0x17 then
    match Map.find s.tables.shaper i with
    | none => 0
    | some x => (setFld x.entry 31 0 (wholeTokens (x.refill s.tbNs).tokens)).setWidth 512
  else aclRead s t (16384 * copy + i)

/-- TAW_DATA as one number. -/
def tawData (s : State) (w : Nat) : BitVec 512 :=
  BitVec.ofNat 512 ((List.range (w / 32)).foldl (fun a k => a + (Map.val s.host.taw.data k 0).toNat * 2 ^ (32 * k)) 0)

/-- TAW_DATA after a READ: the entry, words above its width 0. -/
def tawWords (v : BitVec 512) : Tbl (BitVec 32) :=
  (List.range 16).foldl (fun a k => Map.put 0 a k (BitVec.ofNat 32 (fld v (32 * k + 31) (32 * k)))) []

/-- The operation that TAW_CMD starts: the state and STATUS (Table 5.9). -/
def tawRun (cmd : BitVec 64) (s : State) : State × Status :=
  let op := fld cmd 62 60
  let copy := fld cmd 55 52
  let t := fld cmd 47 40
  let i := fld cmd 31 0
  let v := tawData s (tawWidth t)
  if s.mode = .reset ∨ ((op = 1 ∨ op = 2) ∧ s.confRun = false) then (s, .badMode)
  else if 2 < op ∨ tawEntries t ≤ i ∨ (op = 1 ∧ tawRefuses t v) then (s, .badParam)
  else if tawAbsent s op t copy i then (s, .unitAbsent)
  else if op = 0 then
    ({ s with host := { s.host with taw := { s.host.taw with data := tawWords (tawEntry s t copy i) } } }, .ok)
  else if isAcl t then tawAcl t (op == 2) (16384 * copy + i) v s
  else (s.writeTable t copy i (if op = 2 then 0 else v), .ok)

/-- A write of TAW_CMD with GO = 1, and the TAW writes that found BUSY at 1: each sets OVERRUN and raises TAW_OVERRUN. -/
def tawGo (cmd : BitVec 64) (overruns : Nat) (s : State) : State :=
  if !s.hostUp then s
  else
    let r := tawRun cmd s
    let kept := cmd &&& 0x70F0_FF00_FFFF_FFFF
    let s1 := State.latchLow { r.1 with host := { r.1.host with taw := { r.1.host.taw with
      cmd := kept, status := BitVec.ofNat 16 (statusCode r.2), overrun := r.1.host.taw.overrun || decide (0 < overruns) } } } 0x5000 cmd
    (List.range overruns).foldl (fun a _ => a.raise 0x1003 0x003 0 1 0) s1

def execTawRead (cmd : BitVec 64) (overruns : Nat) (s : State) : Host.Outcome State Fault Refusal :=
  .next (tawGo (setFld cmd 62 60 0) overruns s)

def execTawWrite (cmd : BitVec 64) (overruns : Nat) (s : State) : Host.Outcome State Fault Refusal :=
  .next (tawGo (setFld cmd 62 60 1) overruns s)

def execTawDelete (cmd : BitVec 64) (overruns : Nat) (s : State) : Host.Outcome State Fault Refusal :=
  .next (tawGo (setFld cmd 62 60 2) overruns s)

/-! ### Parity repair (R133) -/

/-- SOURCE of TABLE_PARITY for a table and copy (Table 14.6), FLOW apart. -/
def paritySource (t copy : Nat) : Nat :=
  if t == 1 then 0x200B + 0x100 * copy
  else if t == 2 || t == 3 then 0x200C + 0x100 * copy
  else if inRange t 0x11 0x14 then 0x200D + 0x100 * copy
  else 0x3004 + 0x100 * copy

/-- A table with one copy per quadrant. -/
def perQuad (t : Nat) : Bool := inRange t 1 3 || inRange t 0x11 0x14

/-- The reset entry written in place of one that failed parity in every copy. -/
def State.loseEntry (s : State) (t copy loc : Nat) : State :=
  if t == 1 then
    match Map.find s.tables.host loc with
    | none => s
    | some x => s.removeHost (if hType4 x.entry = 4 then loc - 1 else loc)
  else if t == 2 || t == 3 then
    s.setLpm (t == 3) ((lpmTable s (t == 3)).filter (fun e => e.2.loc.toNat ≠ loc))
  else if isAcl t then s.modTables (fun x => { x with acl := Map.del x.acl (16384 * copy + loc) })
  else if t == 0x16 then s.modTables (fun x => { x with policer := Map.del x.policer loc })
  else if t == 0x17 then s.modTables (fun x => { x with shaper := Map.del x.shaper loc })
  else s.writeTable t copy loc 0

/-- A flow's directory entry failed parity: its record is unreachable until the next sweep clears it (R174). -/
def State.losePath (s : State) (loc : Nat) : State :=
  s.modTables (fun x => { x with flows := Map.adjust x.flows loc (fun f => { f with reachable := false }) })

/-- TABLE_PARITY_REPAIR: rewritten from a good copy and CORRECTED, or the reset entry and DEGRADE. A read that runs in no stage (of
MC_EGRESS, SHAPER or the egress PORT_VLAN) and finds its entry failing parity takes no trap: this row stands before it
(assumption 86). -/
def repairParity (t copy loc : Nat) (good : Bool) (s : State) : State :=
  let addr := t * 2 ^ 40 + copy * 2 ^ 36 + loc
  if s.mode = .reset then s
  else if t == 4 then
    if !hbmThere s copy then s
    else ((s.losePath loc).countQuad copy 36 1).raise (0x2010 + 0x100 * copy + loc / 4 % 2097152 / 524288) 0x063 2 1 addr
  else if perQuad t then
    if !quadThere s copy then s
    else
      let s1 := s.countQuad copy (32 + t) 1
      if good then s1.raise (paritySource t copy) 0x063 1 1 addr
      else (s1.loseEntry t copy loc).raise (paritySource t copy) 0x063 2 1 addr
  else if !inRange t 0x10 0x1A || !sliceThere s copy then s
  else ((s.countSlice copy (288 + (t - 0x10)) 1).loseEntry t copy loc).raise (paritySource t copy) 0x063 2 1 addr

def execTableParityRepair (table : BitVec 8) (copy : BitVec 4) (loc : BitVec 32) (copyGood : Bool) (s : State) :
    Host.Outcome State Fault Refusal := .next (repairParity table.toNat copy.toNat loc.toNat copyGood s)

end Sys2Proof.Machine
end

