-- ==== Sys2Proof/Machine/Parse.lean ====
section
/-! DEFINITION. The parser (R90, R96 to R101, R411): the parse graph, the parse result vector and key extraction. -/

namespace Sys2Proof.Machine

/-- Parse outcomes (Table 4.5). -/
inductive Outcome where
  | ok | depth | trunc | malformed | budget | cs
deriving DecidableEq, Repr

def outcomeCode : Outcome → Nat
  | .ok => 0 | .depth => 1 | .trunc => 2 | .malformed => 3 | .budget => 4 | .cs => 5

/-- A parse failure: outcomes 0x2 to 0x5 (R97). -/
def Outcome.failed : Outcome → Bool
  | .ok => false | .depth => false | .trunc => true | .malformed => true | .budget => true | .cs => true

/-- The parser's routine: the PRV written so far, words executed, the tags, labels and extension headers passed, the offsets of the
outer L3 and L4 headers and of the PTP header, the nodes whose fields were extracted, and whether a tunnel key was. -/
structure Parse where
  prv : List Byte
  words : Nat := 0
  tags : Nat := 0
  labels : Nat := 0
  exts : Nat := 0
  l3 : Option Nat := none
  l4 : Option Nat := none
  ptp : Option Nat := none
  seen : List Nat := []
  tunnelKey : Bool := false
  outcome : Outcome := .ok
deriving DecidableEq, Repr

/-- A PRV of zeros with the ingress port in bytes 72 and 73 (R411). -/
def Parse.start (p : Nat) : Parse := { prv := patch (List.replicate 128 0) 72 (beBytes 2 p) }

/-- Bytes written to the PRV. -/
def Parse.put (x : Parse) (off : Nat) (bs : List Byte) : Parse := { x with prv := patch x.prv off bs }

/-- A byte of the PRV, and the number at some of its bytes. -/
def Parse.byte (x : Parse) (i : Nat) : Nat := beAt x.prv i 1
def Parse.num (x : Parse) (off len : Nat) : Nat := beAt x.prv off len

/-- PARSE_FLAGS (byte 74). -/
def Parse.flag (x : Parse) (bit : Nat) : Bool := (x.byte 74).testBit bit
def Parse.setFlag (x : Parse) (bit : Nat) : Parse := x.put 74 [BitVec.ofNat 8 (x.byte 74 ||| 2 ^ bit)]

def flVlan1 : Nat := 7
def flVlan2 : Nat := 6
def flMpls : Nat := 5
def flIpv4 : Nat := 4
def flIpv6 : Nat := 3
def flL4 : Nat := 2
def flTunnel : Nat := 1
def flFrag : Nat := 0

/-! ### User nodes (Table 4.7) -/

/-- A field of a user node's definition. -/
def nodeCode (d : BitVec 128) : Nat := fld d 127 120
def nodeParent (d : BitVec 128) : Nat := fld d 111 104
def nodeMatch (d : BitVec 128) : Nat := fld d 103 88
def nodeLen (d : BitVec 128) : Nat := fld d 86 80
def nodeNextOff (d : BitVec 128) : Nat := fld d 69 64
/-- EXT0 and EXT1. -/
def nodeExt (d : BitVec 128) (k : Nat) : BitVec 32 := BitVec.ofNat 32 (fld d (32 * k + 31) (32 * k))

/-- Width in bytes of a length field. -/
def lenBytes (d : BitVec 128) : Nat := if fld d 73 72 = 1 then 2 else 1

/-- The user node that hangs from a parent at a selector value. -/
def userEdge (nodes : Tbl (BitVec 128)) (parent sel : Nat) : Option Nat :=
  (nodes.find? (fun e => nodeParent e.2 == parent && nodeMatch e.2 == sel)).map (·.1)

/-! ### Node geometry -/

/-- A shipped edge: the node that a parent's selector value leads to (Table 4.4). The inner nodes have the edges that their rows of
the table give and no others: an inner tag, ICMP or extension header ends the parse with OK (assumption 84). -/
def shippedEdge (parent sel : Nat) : Option Nat :=
  if parent = 0x01 ∨ parent = 0x02 then
    if sel = 0x8100 ∨ sel = 0x88A8 then some 0x02
    else if sel = 0x8847 ∨ sel = 0x8848 then some 0x03
    else if sel = 0x0806 then some 0x04
    else if sel = 0x0800 then some 0x05
    else if sel = 0x86DD then some 0x06
    else if sel = 0x88F7 then some 0x0D
    else none
  else if parent = 0x05 ∨ parent = 0x06 ∨ parent = 0x07 then
    if sel = 6 then some 0x08
    else if sel = 17 then some 0x09
    else if sel = 1 ∨ sel = 58 then some 0x0A
    else if sel = 47 then some 0x0B
    else if parent ≠ 0x05 ∧ (sel = 0 ∨ sel = 43 ∨ sel = 44 ∨ sel = 60) then some 0x07
    else none
  else if parent = 0x09 then
    if sel = 4789 then some 0x0C else if sel = 319 ∨ sel = 320 then some 0x0D else none
  else if parent = 0x0B then
    if sel = 0x6558 then some 0x21 else if sel = 0x0800 then some 0x25 else if sel = 0x86DD then some 0x26 else none
  else if parent = 0x21 then
    if sel = 0x0800 then some 0x25 else if sel = 0x86DD then some 0x26 else none
  else if parent = 0x25 ∨ parent = 0x26 then
    if sel = 6 then some 0x28 else if sel = 17 then some 0x29 else none
  else none

/-- The next node on a selector value. -/
def edge (nodes : Tbl (BitVec 128)) (parent sel : Nat) : Option Nat :=
  match shippedEdge parent sel with
  | some c => some c
  | none => userEdge nodes parent sel

/-- Words of a node (Table 4.4). -/
def nodeWords (c : Nat) : Nat := if c = 0x07 then 2 else 1

/-- The shortest length a node's header can have. -/
def minLen (nodes : Tbl (BitVec 128)) (c : Nat) : Nat :=
  match c with
  | 0x01 => 14 | 0x02 => 4 | 0x03 => 4 | 0x04 => 28 | 0x05 => 20 | 0x06 => 40 | 0x07 => 8 | 0x08 => 20 | 0x09 => 8
  | 0x0A => 8 | 0x0B => 4 | 0x0C => 8 | 0x0D => 34 | 0x21 => 14 | 0x25 => 20 | 0x26 => 40 | 0x28 => 20 | 0x29 => 8
  | _ => nodeLen (Map.val nodes c 0)

/-- GRE length from its C, K and S flags. -/
def greLen (b : Nat) : Nat := 4 + 4 * ((b / 128) % 2 + (b / 32) % 2 + (b / 16) % 2)

/-- The length that a user node's length field gives. -/
def userLen (d : BitVec 128) (bs : List Byte) (off : Nat) : Nat :=
  if bitAt d 87 then
    let v := beAt bs (off + fld d 79 74) (lenBytes d)
    (if fld d 73 72 = 2 then v % 16 else v) * 2 ^ fld d 71 70
  else nodeLen d

/-- The length that a header's own fields give; `frag` marks the IPv6 fragment header. -/
def ownLen (nodes : Tbl (BitVec 128)) (c : Nat) (frag : Bool) (bs : List Byte) (off : Nat) : Nat :=
  if c = 0x05 ∨ c = 0x25 then beAt bs off 1 % 16 * 4
  else if c = 0x07 then (if frag then 8 else (beAt bs (off + 1) 1 + 1) * 8)
  else if c = 0x08 ∨ c = 0x28 then beAt bs (off + 12) 1 / 16 * 4
  else if c = 0x0B then greLen (beAt bs off 1)
  else if 0x40 ≤ c then userLen (Map.val nodes c 0) bs off
  else minLen nodes c

/-- The last byte, counted from the header's start, that its length is read from. -/
def lenReach (nodes : Tbl (BitVec 128)) (c : Nat) : Nat :=
  if c = 0x05 ∨ c = 0x25 ∨ c = 0x0B then 1
  else if c = 0x07 then 2
  else if c = 0x08 ∨ c = 0x28 then 13
  else if 0x40 ≤ c then (let d := Map.val nodes c 0; if bitAt d 87 then fld d 79 74 + lenBytes d else 0)
  else 0

/-- A check of Table 4.4, or of a user node's definition, fails. -/
def badHeader (nodes : Tbl (BitVec 128)) (c : Nat) (bs : List Byte) (off len : Nat) : Bool :=
  if c = 0x05 ∨ c = 0x25 then
    beAt bs off 1 / 16 != 4 || decide (beAt bs off 1 % 16 < 5) || decide (beAt bs (off + 2) 2 < len)
  else if c = 0x06 ∨ c = 0x26 then beAt bs off 1 / 16 != 6
  else if c = 0x08 ∨ c = 0x28 then decide (beAt bs (off + 12) 1 / 16 < 5)
  else if c = 0x0B then beAt bs (off + 1) 1 % 8 != 0
  else if 0x40 ≤ c then decide (len < minLen nodes c) || decide (64 < len)
  else false

/-- Judgement of a selected header's place (R97): `n` is where the frame ends. -/
def placeOf (nodes : Tbl (BitVec 128)) (c : Nat) (frag : Bool) (bs : List Byte) (n off : Nat) : Option Outcome :=
  let len := if off + lenReach nodes c ≤ min n 256 then max (minLen nodes c) (ownLen nodes c frag bs off) else minLen nodes c
  if 256 ≤ off ∨ 256 < off + len then some .depth
  else if n < off + len then some .trunc
  else none

/-! ### Extraction (R100, R411) -/

/-- The fragment state of byte 57, and FRAG. -/
def Parse.fragment (x : Parse) (offset more : Nat) (always : Bool) : Parse :=
  let inner := x.byte 57 / 4 * 4
  if offset ≠ 0 then (x.put 57 [BitVec.ofNat 8 (inner + 2)]).setFlag flFrag
  else if more ≠ 0 || always then x.put 57 [BitVec.ofNat 8 (inner + 1)]
  else x

/-- User slots written by a node's extracts. -/
def Parse.extract (x : Parse) (e : BitVec 32) (bs : List Byte) (off : Nat) : Parse :=
  if bitAt e 21 then
    let k := fld e 31 30
    let n := fld e 23 22 + 1
    (x.put (112 + 4 * k) (beBytes 4 (beAt bs (off + fld e 29 24) n))).put 75 [BitVec.ofNat 8 (x.byte 75 ||| 2 ^ k)]
  else x

/-- A node's fields extracted into the PRV. Byte 54 keeps the next header of the last IPv6 extension header that was parsed, and the
fragment state is that of the last IP header that is a fragment, inner ones too (assumption 84). -/
def Parse.take (x : Parse) (nodes : Tbl (BitVec 128)) (c : Nat) (frag : Bool) (bs : List Byte) (off : Nat) : Parse :=
  let at_ := fun (k n : Nat) => slice bs (off + k) n
  match c with
  | 0x01 => (x.put 0 (at_ 0 12)).put 16 (at_ 12 2)
  | 0x02 =>
    let y := if x.tags = 0 then (x.put 12 (at_ 0 2)).setFlag flVlan1 else (x.put 14 (at_ 0 2)).setFlag flVlan2
    { y.put 16 (at_ 2 2) with tags := x.tags + 1 }
  | 0x03 => { (if x.labels = 0 then (x.put 18 (at_ 0 4)).setFlag flMpls else x) with labels := x.labels + 1 }
  | 0x05 =>
    let y := ((((((x.put 34 (at_ 12 4)).put 50 (at_ 16 4)).put 54 (at_ 9 1)).put 55 (at_ 1 1)).put 56 (at_ 8 1)).setFlag
      flIpv4)
    let f := beAt bs (off + 6) 2
    { y.fragment (f % 8192) (f / 8192 % 2) false with l3 := some off }
  | 0x06 =>
    let w := beAt bs off 4
    let y := ((((((x.put 22 (at_ 8 16)).put 38 (at_ 24 16)).put 54 (at_ 6 1)).put 55 [BitVec.ofNat 8 (w / 1048576 % 256)]).put
      56 (at_ 7 1)).put 68 (beBytes 4 (w % 1048576))).setFlag flIpv6
    { y with l3 := some off }
  | 0x07 =>
    let y := x.put 54 (at_ 0 1)
    let f := beAt bs (off + 2) 2
    { (if frag then y.fragment (f / 8) (f % 2) true else y) with exts := x.exts + 1 }
  | 0x08 => { ((x.put 58 (at_ 0 4)).put 62 (at_ 13 1)).setFlag flL4 with l4 := some off }
  | 0x09 => { (x.put 58 (at_ 0 4)).setFlag flL4 with l4 := some off }
  | 0x0A => { (x.put 63 (at_ 0 1)).setFlag flL4 with l4 := some off }
  | 0x0B =>
    let b := beAt bs off 1
    let y := x.setFlag flTunnel
    if b / 32 % 2 = 1 then { y.put 64 (at_ (4 + 4 * (b / 128 % 2)) 4) with tunnelKey := true } else y
  | 0x0C => { (x.put 65 (at_ 4 3)).setFlag flTunnel with tunnelKey := true }
  | 0x0D => { x with ptp := some off }
  | 0x21 => x.put 76 (at_ 0 12)
  | 0x25 =>
    let f := beAt bs (off + 6) 2
    (((x.put 92 (at_ 12 4)).put 100 (at_ 16 4)).put 104 (at_ 9 1)).fragment (f % 8192) (f / 8192 % 2) false
  | 0x26 =>
    ((((x.put 76 (List.replicate 36 0)).put 76 (at_ 8 16)).put 92 (at_ 24 16)).put 108 (at_ 6 1)).put 57
      [BitVec.ofNat 8 (x.byte 57 ||| 128)]
  | 0x28 =>
    if x.byte 57 / 128 = 1 then (x.put 109 (at_ 2 2)).put 111 (at_ 13 1) else (x.put 105 (at_ 0 4)).put 109 (at_ 13 1)
  | 0x29 => if x.byte 57 / 128 = 1 then x.put 109 (at_ 2 2) else x.put 105 (at_ 0 4)
  | _ =>
    if 0x40 ≤ c then
      let d := Map.val nodes c 0
      (x.extract (nodeExt d 0) bs off).extract (nodeExt d 1) bs off
    else x

/-- An IP header that is a fragment with a non-zero offset: the parse ends after it (R96). -/
def lateFragment (c : Nat) (frag : Bool) (bs : List Byte) (off : Nat) : Bool :=
  if c = 0x05 ∨ c = 0x25 then beAt bs (off + 6) 2 % 8192 != 0
  else if c = 0x07 ∧ frag then beAt bs (off + 2) 2 / 8 != 0
  else false

/-- What a node leads to: its selector value, a further label, or the nibble after the last label. -/
inductive Lead where
  | done
  | sel (value : Nat)
  | label
  | nibble
deriving DecidableEq, Repr

/-- The selector of a node (R99, Table 4.4). -/
def leadOf (nodes : Tbl (BitVec 128)) (c : Nat) (frag : Bool) (bs : List Byte) (off : Nat) : Lead :=
  if lateFragment c frag bs off then .done
  else match c with
  | 0x01 => .sel (beAt bs (off + 12) 2)
  | 0x21 => .sel (beAt bs (off + 12) 2)
  | 0x02 => .sel (beAt bs (off + 2) 2)
  | 0x03 => if beAt bs (off + 2) 1 % 2 = 1 then .nibble else .label
  | 0x05 => .sel (beAt bs (off + 9) 1)
  | 0x25 => .sel (beAt bs (off + 9) 1)
  | 0x06 => .sel (beAt bs (off + 6) 1)
  | 0x26 => .sel (beAt bs (off + 6) 1)
  | 0x07 => .sel (beAt bs off 1)
  | 0x08 => .sel (beAt bs (off + 2) 2)
  | 0x28 => .sel (beAt bs (off + 2) 2)
  | 0x09 => .sel (beAt bs (off + 2) 2)
  | 0x29 => .sel (beAt bs (off + 2) 2)
  | 0x0B => .sel (beAt bs (off + 2) 2)
  | 0x0C => .sel 0
  | _ =>
    if 0x40 ≤ c then
      let o := nodeNextOff (Map.val nodes c 0)
      if o = 0x3F then .done else .sel (beAt bs (off + o) 2)
    else .done

/-- A node limit of Table 4.4 is reached: a third tag, a fifth label, a third extension header. -/
def atLimit (x : Parse) (c : Nat) : Bool :=
  (c == 0x02 && x.tags == 2) || (c == 0x03 && x.labels == 4) || (c == 0x07 && x.exts == 2)

/-- The parse from a selected node on. Each node executes a word, so 17 visits suffice. Of several outcomes that apply to one
header the first in this order stands: a node limit, the budget, the header's place, its checks (assumption 84). -/
def parseFrom (nodes : Tbl (BitVec 128)) (bs : List Byte) (n : Nat) : Nat → Nat → Bool → Nat → Parse → Parse
  | 0, _, _, _, x => { x with outcome := .budget }
  | k + 1, c, frag, off, x =>
    if atLimit x c then x
    else if 16 < x.words + nodeWords c then { x with outcome := .budget }
    else
      let y := { x with words := x.words + nodeWords c }
      match placeOf nodes c frag bs n off with
      | some o => { y with outcome := o }
      | none =>
        let len := ownLen nodes c frag bs off
        if badHeader nodes c bs off len then { y with outcome := .malformed }
        else
          let z : Parse := { y.take nodes c frag bs off with seen := c :: y.seen }
          match leadOf nodes c frag bs off with
          | .done => z
          | .label => parseFrom nodes bs n k 0x03 false (off + len) z
          | .nibble =>
            if 256 ≤ off + len then { z with outcome := .depth }
            else if n ≤ off + len then { z with outcome := .trunc }
            else
              let v := beAt bs (off + len) 1 / 16
              if v = 4 then parseFrom nodes bs n k 0x05 false (off + len) z
              else if v = 6 then parseFrom nodes bs n k 0x06 false (off + len) z
              else z
          | .sel v =>
            if c = 0x0C then parseFrom nodes bs n k 0x21 false (off + len) z
            else match edge nodes c v with
              | none => z
              | some e => parseFrom nodes bs n k e (v == 44) (off + len) z

/-- The parse of a frame: its bytes without the FCS are what headers lie in (assumption 40). -/
def parseFrame (nodes : Tbl (BitVec 128)) (p : Nat) (bytes : List Byte) : Parse :=
  let n := bytes.length - 4
  let x := parseFrom nodes (bytes.take (min n 256)) n 18 0x01 false 0 (Parse.start p)
  x.put 75 [BitVec.ofNat 8 (16 * outcomeCode x.outcome + x.byte 75 % 16)]

/-- The PRV of a parse that a trap abandoned. -/
def abandoned (p : Nat) : Parse :=
  { (Parse.start p).put 75 [BitVec.ofNat 8 (16 * outcomeCode .cs)] with outcome := .cs }

/-! ### Rule key (R98, R101) -/

/-- The PRV field that a byte belongs to was filled by the parse (R98, Table 4.6, R100). Bytes that hold no field, and those that the
parser always writes, are valid. A key takes bytes 76 to 111 in whichever layout the frame carries (R100). -/
def Parse.validAt (x : Parse) (i : Nat) : Bool :=
  let saw := fun (c : Nat) => x.seen.contains c
  let v6 := decide (128 ≤ x.byte 57)
  if i < 12 then saw 0x01
  else if i < 14 then x.flag flVlan1
  else if i < 16 then x.flag flVlan2
  else if i < 18 then saw 0x01
  else if i < 22 then x.flag flMpls
  else if i < 57 then x.flag flIpv4 || x.flag flIpv6
  else if i = 57 then true
  else if i < 62 then saw 0x08 || saw 0x09
  else if i = 62 then saw 0x08
  else if i = 63 then saw 0x0A
  else if i < 68 then x.tunnelKey
  else if i < 72 then x.flag flIpv6
  else if i < 76 then true
  else if i < 112 then
    if v6 then (if i < 109 then saw 0x26 else if i < 111 then saw 0x28 || saw 0x29 else saw 0x28)
    else if i < 88 then saw 0x21
    else if i < 105 then saw 0x25
    else if i < 109 then saw 0x28 || saw 0x29
    else if i = 109 then saw 0x28
    else true
  else (x.byte 75).testBit ((i - 112) / 4)

/-- Every field that a profile's key needs is valid. -/
def keyValid (prof : List Extract) (x : Parse) : Bool :=
  prof.all (fun e => (List.range e.len).all (fun k => x.validAt (e.off + k)))

/-- The rule key of a profile: PRV runs in list order from byte 0, the rest 0 (R101). -/
def ruleKey (prof : List Extract) (x : Parse) : BitVec 512 :=
  BitVec.ofNat 512 (leNat ((prof.flatMap (fun e => slice x.prv e.off e.len)).take 64))

end Sys2Proof.Machine
end

