-- ==== Sys2Proof/Machine/TimeBase.lean ====
section
/-! DEFINITION. The time base (R224 to R241): ticks, register writes, references and quality, PPS, checkpoints to the
slices, and the calibration of stamp paths (R244, R248). -/

namespace Sys2Proof.Machine

/-! ### Time events (R255) -/

/-- Fields of TIME_CTL (Table 9.2). -/
def timeCtl (s : State) (hi lo : Nat) : Nat := fld s.time.ctl hi lo

/-- A time event (Table 9.10). -/
def State.postTime (s : State) (kind old new : Nat) (time : TimeVal) (value : BitVec 64) : State :=
  s.postDropped (timeCtl s 63 48) 3 0 (fun dropped => pack 320
    [(319, 192, time.toNat), (191, 184, kind), (183, 176, old), (175, 168, new), (127, 64, value.toNat), (63, 0, dropped)])

/-- The current quality's code. -/
def State.qual (s : State) : Nat := qualityCode s.time.quality

/-- Update of the time base. -/
def State.modTime (s : State) (f : TimeState → TimeState) : State := { s with time := f s.time }

/-- The time base in its new quality: an entry into HOLDOVER clears TRACE_ASSERT, and from TRACEABLE starts HOLD_VALID
(R234). -/
def TimeState.enter (now : Nat) (q : Quality) (t : TimeState) : TimeState :=
  let hold : Bool := q == .holdover
  { t with
    quality := q, ctl := if hold then setFld t.ctl 0 0 0 else t.ctl
    holdValid := hold && t.quality == .traceable && decide (0 < fld t.ctl 31 20)
    holdStart := if hold then now else t.holdStart }

/-- The quality follows its conditions (Table 9.4, R235): a QUALITY event and event records for a change. -/
def State.requality (s : State) : State :=
  let q := qualityNow s.time
  if q = s.time.quality then s
  else
    let old := s.qual
    let s1 := (s.mark false).modTime (TimeState.enter s.tbNs q)
    let s2 := (s1.postTime 2 old s1.qual s1.now 0).auditEvent 0x02 0 old s1.qual s1.now
    s2.modChains (fun x => { x with qualSeen := x.qualSeen ||| BitVec.ofNat 5 (2 ^ s1.qual) })

/-! ### Writes (R227 to R231) -/

/-- A register of the time base refuses a write: TIME_REG_REJECT. -/
def State.timeReject (s : State) (offset : Nat) : State := s.raise 0x1004 0x020 0 1 offset

/-- TIME_VALID (R236, Table 9.4). -/
def State.timeValid (s : State) : Bool :=
  s.confRun && (s.time.quality == .traceable || (s.time.quality == .holdover && s.time.holdValid))

/-- A one-step frame of PTP_TX (R252). -/
def FrameKind.oneStep : FrameKind → Bool
  | .ptpTx _ _ mode _ _ _ => mode == 2 || mode == 3
  | _ => false

/-- A step has applied to a port's one-step frame in transmission: its stamp quality carries STEPPED (R253). -/
def Port.stepped (x : Port) : Port :=
  if x.tx.any (fun e => e.frame.kind.oneStep) then { x with txQual := x.txQual ||| 0x20 } else x

/-- A step of device time to an instant (R231, R253). -/
def State.stepTo (s : State) (dev : Nat) : State :=
  let size : BitVec 64 := satSigned (((dev : Int) - s.time.dev) / 65536)
  let s0 := ((s.mark true).modTime (fun t => { t with
    dev := dev, steps := if t.steps = 0xFFFF then t.steps else t.steps + 1 })).skipWindows
  let s1 : State := { s0 with ports := s0.ports.map (fun e => (e.1, e.2.stepped)) }
  let s2 := (s1.postTime 3 s1.qual s1.qual s1.now size).auditEvent 0x03 size s1.qual s1.qual s1.now
  s2.modChains (fun x => { x with sawStep := true })

/-- The first TIME_SET: time is set, INVALID is left, and an epoch that waits for it opens (R230, R277). -/
def State.firstSet (s : State) (dev : Nat) : State :=
  let s1 := (((s.mark false).modTime (fun t => { t with dev := dev, set := true, everLocked := t.refLock })).skipWindows).requality
  match s1.audit.awaiting with
  | some cause => s1.openEpoch cause.toNat
  | none => s1

/-- The last counted offset lies within ±PPS_TOL. -/
def TimeState.inTol (t : TimeState) : Bool :=
  t.ppsCounted.isSome && decide (t.pps.offset.toInt.natAbs ≤ 65536 * t.ppsTolNs)

/-- TIME_CTL in force (Table 9.2): a change of REF_SEL or TCLK_FREQ ends the lock (R233), a clear of PPS_OUT_EN ends a
pulse (R238). -/
def TimeState.setCtl (v : BitVec 64) (t : TimeState) : TimeState :=
  let change : Bool := fld v 7 3 != fld t.ctl 7 3
  let u : TimeState := { t with ctl := setFld v 10 8 0, refLock := t.refLock && !change, ppsOut := t.ppsOut && bitAt v 1 }
  { u with ppsTol := u.inTol }

/-- A write applies at a tick, after the increment of that tick. -/
def State.applyWrite (s : State) (w : TimeWrite) : State :=
  match w with
  | .inc v => s.modTime (fun t => { t with inc := v })
  | .adj v =>
    let d : Int := (s.time.dev : Int) + v.toInt * 65536
    if d < 0 then s.timeReject 0x6008 else s.stepTo d.toNat
  -- every slice takes the value written, so no copy of device time differs from the hub's after it
  | .setTime sec ns =>
    let d := sec.toNat * secUnit + fld ns 63 32 * nsUnit + fld ns 31 16 * 65536
    let s1 := if s.time.set then s.stepTo d else s.firstSet d
    s1.modTime (fun t => { t with skews := t.skews.filterMap (fun e => if e.2.2 = 0 then none else some (e.1, (0, e.2.2))) })
  | .ctl v => (s.modTime (TimeState.setCtl v)).requality

/-- Both counts after some ticks at the increment in force (R224). -/
def TimeState.count (n : Nat) (t : TimeState) : TimeState :=
  { t with dev := t.dev + n * t.inc.toNat, tb := t.tb + n * t.inc.toNat }

/-- TIME_TICK: `n` ticks of the time clock. The writes that wait take effect at the first of them. -/
def ticks (n : Nat) (s : State) : State :=
  if n = 0 then s
  else
    let a := s.modTime (TimeState.count 1)
    let up := decide (s.time.dev / secUnit < a.time.dev / secUnit)
    let b := s.time.writes.foldl State.applyWrite (a.modTime (fun t => { t with writes := [] }))
    let c := b.modTime (TimeState.count (n - 1))
    let again := decide (b.time.dev / secUnit < c.time.dev / secUnit)
    c.modTime (fun t => { t with crossed := up || again, ticks := t.ticks + n })

/-- A slice's copy moves against the hub's. -/
def TimeState.skew (t : TimeState) (x : SliceSlip) : TimeState :=
  { t with skews := Map.upd (0, 0) t.skews x.slice.toNat (fun d => (d.1 + x.dev, d.2 + x.tb)) }

/-- The copies that have slipped since the last change of the time base (R240). -/
def State.skewed (s : State) (slips : List SliceSlip) : State :=
  if slips.isEmpty then s else (s.mark false).modTime (fun t => slips.foldl TimeState.skew t)

def execTimeTick (t : Ticks) (s : State) : Host.Outcome State Fault Refusal := .next ((ticks t.count s).skewed t.slips)

/-- A write waits for its tick. -/
def State.queueWrite (s : State) (w : TimeWrite) : State := s.modTime (fun t => { t with writes := t.writes ++ [w] })

/-- Modes in which the time-base registers are writable (R227). -/
def State.timeWritable (s : State) : Bool := s.hostUp

/-- TIME_INC (R228). -/
def writeInc (v : BitVec 64) (s : State) : State :=
  if !s.timeWritable then s
  else if inRange v.toNat 0x130000000 0x150000000 then (s.latchLow 0x6000 v).queueWrite (.inc v)
  else (s.latchLow 0x6000 v).timeReject 0x6000

/-- TIME_ADJ (R229). -/
def writeAdj (v : BitVec 64) (s : State) : State :=
  if !s.timeWritable then s
  else
    let s1 := s.latchLow 0x6008 v
    if v.toInt.natAbs ≤ 0x3B9ACA000000 then s1.queueWrite (.adj v) else s1.timeReject 0x6008

/-- TIME_SET (R230). -/
def writeSet (sec ns : BitVec 64) (s : State) : State :=
  if !s.timeWritable then s
  else
    let s1 := ((s.latchLow 0x6010 sec).latch 0x6014 (BitVec.ofNat 32 (fld sec 63 32))).latchLow 0x6018 ns
    if fld ns 63 32 ≤ 999999999 then s1.queueWrite (.setTime sec ns) else s1.timeReject 0x6018

/-- TIME_CTL (Table 9.2). -/
def badTimeCtl (v : BitVec 64) : Bool :=
  fld v 47 32 == 0 || decide (3600 < fld v 31 20) || !inRange (fld v 19 11) 1 500 || decide (3 < fld v 7 5) || fld v 4 3 == 3

def writeTimeCtl (v : BitVec 64) (s : State) : State :=
  if !s.timeWritable then s
  else if badTimeCtl v then (s.latchLow 0x6038 v).timeReject 0x6038
  else (s.latchLow 0x6038 v).queueWrite (.ctl v)

def execTimeIncWrite (value : BitVec 64) (s : State) : Host.Outcome State Fault Refusal := .next (writeInc value s)
def execTimeAdjWrite (value : BitVec 64) (s : State) : Host.Outcome State Fault Refusal := .next (writeAdj value s)
def execTimeSet (sec ns : BitVec 64) (s : State) : Host.Outcome State Fault Refusal := .next (writeSet sec ns s)
def execTimeCtlWrite (value : BitVec 64) (s : State) : Host.Outcome State Fault Refusal := .next (writeTimeCtl value s)

/-! ### Latches (R232, R237) -/

/-- The time base as a read finds it: writes that completed before it have taken effect at a tick (R30). -/
def State.timeSettled (s : State) : State := if s.time.writes.isEmpty then s else ticks 1 s

/-- TIME_NOW_LATCH. -/
def latchNow (s0 : State) : State :=
  if s0.hostUp then
    let s := s0.timeSettled
    (s.modTime (fun t => { t with nowLatch := s.now, tbLatch := BitVec.ofNat 64 s.tbNs })).emit (.read 0x6020 s.now)
  else s0

/-- The PPS_IN registers as a read finds them. -/
def TimeState.ppsRead (t : TimeState) : PpsLatch := t.ppsHeld.getD t.pps

/-- PPS_IN_LATCH: while the latch is held, its values stay. -/
def latchPps (s : State) : State :=
  if s.hostUp then
    (s.modTime (fun t => { t with ppsHeld := some t.ppsRead })).emit (.read 0x6050 s.time.ppsRead.stamp)
  else s

/-- PPS_IN_LATCH_RELEASE. -/
def releasePps (s : State) : State :=
  if s.hostUp then
    (s.modTime (fun t => { t with ppsHeld := none })).emit (.read 0x6068 (s.time.ppsRead.count.setWidth 128))
  else s

def execTimeNowLatch (s : State) : Host.Outcome State Fault Refusal := .next (latchNow s)
def execPpsInLatch (s : State) : Host.Outcome State Fault Refusal := .next (latchPps s)
def execPpsInLatchRelease (s : State) : Host.Outcome State Fault Refusal := .next (releasePps s)

/-! ### Checkpoints to the slices (R240, R241) -/

/-- A slice's copy differed from its checkpoint and takes the checkpoint's value: TIME_SLIP, a SLIP event, and a CORRECTED fault. -/
def State.slip (s : State) (sl : Nat) : State :=
  let s1 := ((s.mark false).countSlice sl 284 1).modTime (fun t => { t with
    skews := Map.del t.skews sl, slips := (sl, t.tb) :: t.slips })
  let v := BitVec.ofNat 64 sl
  let s2 := (s1.postTime 4 s1.qual s1.qual s1.now v).auditEvent 0x04 v s1.qual s1.qual s1.now
  (s2.modChains (fun x => { x with sawSlip := true })).raise (0x3002 + 0x100 * sl) 0x022 1 1 sl

/-- What a slice does with a checkpoint: it loads its copy, or corrects one that differs. -/
def State.takeCheckpoint (s : State) (sl : Nat) : State :=
  if !s.domOn (4 + sl) then s
  else if !bitAt s.time.sliceOk sl then
    s.modTime (fun t => { t with sliceOk := setFld t.sliceOk sl sl 1, skews := Map.del t.skews sl })
  else if (Map.find s.time.skews sl).isSome then s.slip sl
  else s

/-- TIME_CHECKPOINT: 1,024 ticks since the last. It finds the copies that slipped at earlier ticks, and those that have slipped
since the last of them. -/
def timeCp (slips : List SliceSlip) (s : State) : State :=
  if s.time.ticks < 1024 ∨ !s.domLive then s
  else foldNats (slicesThere s) (fun a sl => a.takeCheckpoint sl)
    ((s.skewed slips).modTime (fun t => { t with ticks := t.ticks % 1024 }))

def execTimeCheckpoint (slips : List SliceSlip) (s : State) : Host.Outcome State Fault Refusal := .next (timeCp slips s)

/-! ### PPS (R237, R238) -/

/-- The offset of an edge: signed, in 2^-16 ns. -/
def ppsOffset (stamp : Nat) : Int :=
  let v : Int := (stamp % secUnit / 65536 : Nat)
  if stamp % secUnit / nsUnit < 500000000 then v else v - 1000000000 * 65536

/-- Witness figures of a counted edge (Table 10.6). -/
def Chain.sawEdge (off : BitVec 64) (x : Chain) : Chain :=
  { x with ppsLast := off, ppsEdges := if x.ppsEdges = 0xFF then 0xFF else x.ppsEdges + 1
           ppsMax := if x.ppsMax.toNat < off.toInt.natAbs then BitVec.ofNat 64 off.toInt.natAbs else x.ppsMax }

/-- PPS_IN_EDGE: the edge stands `quarter` quarter-nanoseconds after the last tick. -/
def ppsEdge (quarter : BitVec 3) (s : State) : State :=
  if s.mode = .reset then s
  else if (match s.time.ppsAccept with
      | some t => decide (s.tbNs < t + 500000000)
      | none => false) then s.bump 0 0 1
  else
    let at_ := roundQuarter (s.time.dev + quarter.toNat * 1073741824)
    let off := BitVec.ofInt 64 (ppsOffset at_)
    let counted : Bool := s.time.quality != .invalid
    let s1 := s.modTime (fun t => { t with
      ppsAccept := some s.tbNs
      pps := { stamp := timeOf at_, offset := off, count := if counted then t.pps.count + 1 else t.pps.count } })
    if !counted then s1
    else
      let s2 := ((s1.postTime 1 s1.qual s1.qual (timeOf at_) off).modTime (fun t =>
        let u : TimeState := { t with ppsCounted := some s.tbNs, ppsSeen := true }
        { u with ppsTol := u.inTol })).modChains (Chain.sawEdge off)
      s2.requality

def execPpsInEdge (quarter : BitVec 3) (s : State) : Host.Outcome State Fault Refusal := .next (ppsEdge quarter s)

/-- PPS_SEEN_TIMEOUT: no counted edge within the last 1.5 s. -/
def ppsTimeout (s : State) : State :=
  if s.time.ppsSeen && s.reached (s.time.ppsCounted.map (· + 1500000000)) then
    (s.modTime (fun t => { t with ppsSeen := false })).requality
  else s

def execPpsSeenTimeout (s : State) : Host.Outcome State Fault Refusal := .next (ppsTimeout s)

/-- PPS_OUT_RISE: a tick of the last TIME_TICK carried device time across a second boundary. -/
def ppsRise (s : State) : State :=
  if s.confRun && bitAt s.time.ctl 1 && s.time.quality != .invalid && s.time.crossed then
    s.modTime (fun t => { t with ppsOut := true, ppsOutNs := s.tbNs, crossed := false })
  else s

/-- PPS_OUT_FALL: PPS_WIDTH ms after the rise. -/
def ppsFall (s : State) : State :=
  if s.time.ppsOut && decide (s.time.ppsOutNs + 1000000 * timeCtl s 19 11 ≤ s.tbNs) then
    s.modTime (fun t => { t with ppsOut := false })
  else s

def execPpsOutRise (s : State) : Host.Outcome State Fault Refusal := .next (ppsRise s)
def execPpsOutFall (s : State) : Host.Outcome State Fault Refusal := .next (ppsFall s)

/-! ### References (R233, R234) -/

/-- REF_LOCK: the selected reference has stayed within ±100 ppm for 1 s. -/
def refLocks (s : State) : State :=
  if s.time.refSel = 0 ∨ s.time.refLock then s
  else (s.modTime (fun t => { t with refLock := true, everLocked := t.everLocked || t.set })).requality

/-- REF_LOSS. -/
def refLost (s : State) : State :=
  if s.time.refLock then
    ((s.modTime (fun t => { t with refLock := false })).requality).raise 0x1004 0x021 0 1 s.time.refSel
  else s

def execRefLock (s : State) : Host.Outcome State Fault Refusal := .next (refLocks s)
def execRefLoss (s : State) : Host.Outcome State Fault Refusal := .next (refLost s)

/-- HOLD_VALID_EXPIRY. -/
def holdExpired (s : State) : State :=
  if s.time.quality == .holdover && s.time.holdValid &&
      decide (s.time.holdStart + 1000000000 * timeCtl s 31 20 ≤ s.tbNs) then
    s.modTime (fun t => { t with holdValid := false })
  else s

def execHoldValidExpiry (s : State) : Host.Outcome State Fault Refusal := .next (holdExpired s)

/-! ### Calibration (R244, R248) -/

/-- The specified stamp error of a port's lanes, in ps (R246). -/
def boundLimit (x : Port) : Nat := if x.native then 3000 else 5000

/-- STAMP_CALIBRATION: D_RX, D_TX and the bound of a port whose lanes are UP. -/
def calibrate (p : Nat) (dRx dTx bound : BitVec 32) (s : State) : State :=
  if lanesIn s p .up then
    s.modPort p (fun x => { x with
      dRx := dRx, dTx := dTx, calBound := BitVec.ofNat 32 (min bound.toNat (boundLimit x)), calNs := BitVec.ofNat 64 s.tbNs
      calCount := if x.calCount = 0xFF then 0xFF else x.calCount + 1, link := { x.link with calibrated := true } })
  else s

def execStampCalibration (port : PortNo) (dRx dTx bound : BitVec 32) (s : State) : Host.Outcome State Fault Refusal :=
  .next (calibrate port.toNat dRx dTx bound s)

/-- BOUND of Table 9.7: the port's own, and on stepping A0 (CAP.STEPPING 0x00) always the specified one (R248, R410). -/
def reportedBound (s : State) (x : Port) : Nat := if s.fuses.stepping = 0 then boundLimit x else x.calBound.toNat

/-- The result of Table 9.7. -/
def tsCal (p : Nat) (s : State) : Res :=
  match s.port p with
  | none => .fail .notFound s
  | some x =>
    if !x.link.up then .fail .linkDown s
    else .ok (pack 384 [(191, 128, x.calNs.toNat), (127, 96, x.dRx.toNat), (95, 64, x.dTx.toNat), (63, 32, reportedBound s x),
      (7, 0, x.calCount.toNat)]) s

def execTsCalGet (sub : Sub) (port : Handle) (s : State) : Host.Outcome State Fault Refusal :=
  .next (runCommand Cat.tsCalGet sub (pack 384 [(31, 0, port.toNat)]) { act := tsCal (hPort port) } s)

end Sys2Proof.Machine
end

