-- ==== Sys2Proof/Machine/Bundle.lean ====
section
/-! DEFINITION. Bundles and microcode segments (R376 to R380): their header, their segment table and their verification. -/

namespace Sys2Proof.Machine

/-- The header of Table 16.4, and the segment entries of Table 16.5. -/
def bundleHead (b : List Byte) : BitVec 4096 := BitVec.ofNat 4096 (leNat (b.take 512))
def segCount (b : List Byte) : Nat := fld (bundleHead b) 111 104
def bundleSegs (b : List Byte) : List (BitVec 512) :=
  (List.range (segCount b)).map (fun i => BitVec.ofNat 512 (leNat (slice b (512 + 64 * i) 64)))

def segOffset (e : BitVec 512) : Nat := fld e 95 64
def segLen (e : BitVec 512) : Nat := fld e 127 96
def segType (e : BitVec 512) : Nat := fld e 7 0
def segIndex (e : BitVec 512) : Nat := fld e 15 8

/-- The bytes of a segment. -/
def segBytes (b : List Byte) (e : BitVec 512) : List Byte := slice b (segOffset e) (segLen e)

/-- BUNDLE_VER, SVN, SVN_COMMIT and TOTAL_LEN. -/
def bundleVer (b : List Byte) : BitVec 32 := BitVec.ofNat 32 (fld (bundleHead b) 63 32)
def bundleSvn (b : List Byte) : Nat := fld (bundleHead b) 79 64
def svnCommit (b : List Byte) : Bool := bitAt (bundleHead b) 80
def totalLen (b : List Byte) : Nat := fld (bundleHead b) 159 128

/-- Items 3 and 4 of R377: the public key and the signature over header bytes 0 to 175. -/
def signedHead (b : List Byte) : Bool :=
  sha384 (slice b 32 96) == Config.firmwareKeyDigest &&
  Config.signatureValid (slice b 32 96) (slice b 176 48) (slice b 224 48) (sha384 (b.take 176))

/-- Two segments overlap. -/
def overlap (a b : BitVec 512) : Bool :=
  decide (segOffset a < segOffset b + segLen b) && decide (segOffset b < segOffset a + segLen a)

/-- No two of some segments overlap. -/
def disjoint : List (BitVec 512) → Bool
  | [] => true
  | a :: r => r.all (fun b => !overlap a b) && disjoint r

/-- A segment entry is well formed and its bytes match its digest. -/
def segOk (b : List Byte) (e : BitVec 512) : Bool :=
  decide (segOffset e + segLen e ≤ totalLen b) && decide (totalLen b ≤ b.length) && segOffset e % 64 == 0 && fld e 63 16 == 0 &&
  inRange (segType e) 1 6 && (segType e == 4 || segIndex e == 0) && decide (segIndex e < 8) &&
  leBytes 48 (fld e 511 128) == sha384 (segBytes b e)

/-- Items 5 and 6 of R377, and the bounds of Table 16.4. -/
def segsOk (b : List Byte) : Bool :=
  inRange (segCount b) 1 32 && decide (totalLen b ≤ 33554432) &&
  slice b 128 48 == sha384 (slice b 512 (64 * segCount b)) && (bundleSegs b).all (segOk b) && disjoint (bundleSegs b)

/-- How many segments have a type and index. -/
def countSeg (b : List Byte) (typ index : Nat) : Nat :=
  (bundleSegs b).countP (fun e => segType e == typ && segIndex e == index)

/-- The checks of a bundle's header (items 1 to 4 and 8 of R377). -/
def bundleHeadOk (s : State) (b : List Byte) : Bool :=
  let h := bundleHead b
  fld h 31 0 == 0x31444C44 && fld h 4095 2176 == 0 && fld h 255 160 == 0 && fld h 127 112 == 0 && fld h 87 81 == 0 &&
  bitAt h (88 + (s.fuses.member.toNat - 1)) && decide (fld h 103 96 ≤ s.fuses.stepping.toNat) && signedHead b &&
  decide (s.fuses.svn ≤ bundleSvn b)

/-- A bundle passes verification (R377). -/
def bundleOk (s : State) (b : List Byte) : Bool :=
  bundleHeadOk s b && segsOk b && [1, 2, 3, 6].all (fun t => countSeg b t 0 == 1) &&
  (List.range 8).all (fun i => countSeg b 4 i == 1) &&
  (if s.fuses.member = 3 then decide (countSeg b 5 0 ≤ 1) else countSeg b 5 0 == 1)

/-- Type and index of the segment of a store: 0 the parser, 1 to 8 the stages, 9 Infuser. -/
def storeSeg (store : Nat) : Nat × Nat := if store = 0 then (3, 0) else if store = 9 then (5, 0) else (4, store - 1)

/-- The image of a store in a bundle or segment. -/
def storeImage (b : List Byte) (store : Nat) : List Byte :=
  match (bundleSegs b).find? (fun e => segType e == (storeSeg store).1 && segIndex e == (storeSeg store).2) with
  | some e => segBytes b e
  | none => []

/-- STORE_MASK of a microcode segment's header (R380). -/
def segMask (b : List Byte) : Nat := fld (bundleHead b) 127 112

/-- A microcode segment passes verification (R380). -/
def csOk (s : State) (b : List Byte) : Bool :=
  let h := bundleHead b
  fld h 31 0 == 0x32534344 && fld h 4095 2176 == 0 && fld h 255 224 == 0 && fld h 87 81 == 0 &&
  decide (fld h 191 160 ≤ s.dev.bundleVer.toNat) && decide (s.dev.bundleVer.toNat ≤ fld h 223 192) && signedHead b &&
  decide (s.fuses.svn ≤ bundleSvn b) && segsOk b && decide (segMask b < 1024) &&
  segCount b == (bitsSet 10 (segMask b)).length &&
  (bitsSet 10 (segMask b)).all (fun i => countSeg b (storeSeg i).1 (storeSeg i).2 == 1)

end Sys2Proof.Machine
end

