-- ==== Sys2Proof/Machine/Versions.lean ====
section
/-! DEFINITION. Rule versions (R94, R99, R101, R109 to R119): the staging set, commit and switch, drain, and control-store
images. -/

namespace Sys2Proof.Machine

/-- Update of the rule versions. -/
def State.modVers (s : State) (f : VerState → VerState) : State := { s with vers := f s.vers }
def State.setSlot (s : State) (b : Bool) (v : VSlot) : State :=
  s.modVers (fun x => if b then { x with slot1 := v } else { x with slot0 := v })
def State.setStage (s : State) (g : Option Stage) : State := s.modVers (fun x => { x with stage := g })
def State.setCommit (s : State) (j : Option CommitJob) : State := s.modVers (fun x => { x with commit := j })

/-- A set with no changes. -/
def Stage.empty : Stage := { rules := [], profiles := [], nodes := [], loaded := 0 }

/-- The slot that is DRAINING. -/
def drainSlot (s : State) : Option Bool :=
  if s.vers.slot0.state = .draining then some false else if s.vers.slot1.state = .draining then some true else none

/-- A version handle (R111). -/
def verHandle (gen : BitVec 8) (number : BitVec 16) : Handle := mkHandle gen 9 number.toNat

/-- The number that follows (R111). -/
def VerState.advance (v : VerState) : VerState :=
  if v.nextVer = 0xFFFF then { v with nextVer := 1, verGen := nextGen v.verGen } else { v with nextVer := v.nextVer + 1 }

/-- VER_STATUS (Table 4.15). -/
def verStatus (s : State) : BitVec 64 :=
  let a := s.slotOf s.activeSlot
  pack 64 [(63, 48, if a.state = .active then a.number.toNat else 0),
    (47, 32, match drainSlot s with
      | some b => (s.slotOf b).number.toNat
      | none => 0),
    (31, 16, s.vers.nextVer.toNat), (15, 15, s.vers.stage.isSome.toNat), (14, 14, s.activeSlot.toNat),
    (13, 13, (s.vers.commit.any (fun j => j.waiting)).toNat)]

/-- Profile and node changes of a set, and rule changes of its busiest slice (R114). -/
def Stage.small (g : Stage) : Nat := g.profiles.length + g.nodes.length
def Stage.busiest (g : Stage) : Nat := ((List.range 16).map (stagedIn g)).foldl max 0

/-! ### Commands on the set (Table 4.13) -/

/-- A command that changes the open set: BUSY while it is sealed, NO_STAGE where none is open. -/
def onStage (s : State) (f : Stage → Res) : Res :=
  if s.vers.commit.isSome then .fail .busy s
  else match s.vers.stage with
    | none => .fail .noStage s
    | some g => f g

/-- RULESET_OPEN. -/
def openSet (s : State) : Res :=
  if s.vers.stage.isSome then .fail .busy s
  else .ok (s.vers.nextVer.setWidth 384) (s.setStage (some Stage.empty))

def execRulesetOpen (sub : Sub) (s : State) : Host.Outcome State Fault Refusal :=
  .next (runCommand Cat.rulesetOpen sub 0 { act := openSet } s)

/-- RULESET_ABORT (R118). -/
def abortSet (s : State) : Res := onStage s (fun _ => .ok 0 (s.setStage none))

def execRulesetAbort (sub : Sub) (s : State) : Host.Outcome State Fault Refusal :=
  .next (runCommand Cat.rulesetAbort sub 0 { act := abortSet } s)

/-- VERSION_STATUS_GET. -/
def versionStatus (s : State) : BitVec 384 :=
  let g := s.vers.stage.getD Stage.empty
  pack 384 [(63, 0, (verStatus s).toNat), (79, 64, g.small), (95, 80, g.busiest), (127, 96, g.rules.length)]

def execVersionStatusGet (sub : Sub) (s : State) : Host.Outcome State Fault Refusal :=
  .next (runCommand Cat.versionStatusGet sub 0 { act := fun s => .ok (versionStatus s) s } s)

/-- The extracts that KEY_PROFILE_SET names (Table 12.6). -/
def extractsOf (count : Nat) (x : BitVec 176) : List Extract :=
  (List.range count).map (fun k => { off := fld x (11 * k + 6) (11 * k), len := fld x (11 * k + 10) (11 * k + 7) + 1 })

/-- A profile that KEY_PROFILE_SET refuses (R101); the slots beyond COUNT must be 0 (R313). -/
def badProfile (count : Nat) (x : BitVec 176) : Bool :=
  let l := extractsOf count x
  decide (16 < count) || decide (2 ^ (11 * count) ≤ x.toNat) || decide (64 < (l.map (·.len)).sum) || l.any (fun e => decide (128 < e.off + e.len))

def setProfile (n : Nat) (l : List Extract) (s : State) : Res :=
  onStage s (fun g =>
    if (Map.find g.profiles n).isNone && decide (64 ≤ g.small) then .fail .versionLimit s
    else .ok 0 (s.setStage (some { g with profiles := Map.ins g.profiles n l })))

def execKeyProfileSet (sub : Sub) (profile : BitVec 4) (count : BitVec 5) (extracts : BitVec 176) (s : State) :
    Host.Outcome State Fault Refusal :=
  .next (runCommand Cat.keyProfileSet sub (pack 384 [(3, 0, profile.toNat), (8, 4, count.toNat), (191, 16, extracts.toNat)])
    { bad := fun _ => badProfile count.toNat extracts
      act := setProfile profile.toNat (extractsOf count.toNat extracts) } s)

/-- The user nodes as the open set would leave them. -/
def stagedNodes (s : State) : Tbl (BitVec 128) :=
  ((s.vers.stage.getD Stage.empty).nodes).foldl (fun t e => match e.2 with
    | some d => Map.ins t e.1 d
    | none => Map.del t e.1) (s.slotOf s.activeSlot).nodes

/-- A node code that may be a parent: one with a selector of R99. -/
def mayParent (c : Nat) : Bool :=
  [0x01, 0x02, 0x05, 0x06, 0x08, 0x09, 0x0B, 0x21, 0x25, 0x26, 0x28, 0x29].contains c || inRange c 0x40 0x4F

/-- A user node's parents lead back to a node. -/
def leadsTo (t : Tbl (BitVec 128)) (node : Nat) : Nat → Nat → Bool
  | 0, _ => false
  | n + 1, c =>
    c == node || (match Map.find t c with
      | some d => leadsTo t node n (nodeParent d)
      | none => false)

/-- An extract that is enabled and lies outside the header. -/
def badExtract (len : Nat) (e : BitVec 32) : Bool := bitAt e 21 && decide (len < fld e 29 24 + fld e 23 22 + 1)

/-- A definition that PARSE_NODE_SET refuses (R96, R99, Table 4.7). -/
def badNode (s : State) (d : BitVec 128) : Bool :=
  let t := Map.del (stagedNodes s) (nodeCode d)
  let len := nodeLen d
  !inRange (nodeCode d) 0x40 0x4F ||
  (!bitAt d 119 &&
    (!mayParent (nodeParent d) || (edge t (nodeParent d) (nodeMatch d)).isSome ||
      leadsTo t (nodeCode d) 17 (nodeParent d) || !inRange len 1 64 || fld d 73 72 == 3 ||
      (bitAt d 87 && decide (len < fld d 79 74 + lenBytes d)) ||
      (nodeNextOff d != 0x3F && decide (len < nodeNextOff d + 2)) ||
      badExtract len (nodeExt d 0) || badExtract len (nodeExt d 1)))

def setNode (d : BitVec 128) (s : State) : Res :=
  onStage s (fun g =>
    if (Map.find g.nodes (nodeCode d)).isNone && decide (64 ≤ g.small) then .fail .versionLimit s
    else .ok 0 (s.setStage (some { g with
      nodes := Map.ins g.nodes (nodeCode d) (if bitAt d 119 then none else some d) })))

def execParseNodeSet (sub : Sub) (def_ : BitVec 128) (s : State) : Host.Outcome State Fault Refusal :=
  .next (runCommand Cat.parseNodeSet sub (def_.setWidth 384)
    { bad := fun s => badNode s def_, act := setNode def_ } s)

/-! ### Control stores (R94, R115) -/

/-- Bytes of a word of a store, and words of one of its banks (Table 4.1, R143). -/
def wordBytes (store : Nat) : Nat := if store = 0 then 32 else 64
def bankWords (store : Nat) : Nat := if store = 0 then 8192 else if store = 9 then 16384 else 4096
def storeBytes (store : Nat) : Nat := wordBytes store * bankWords store

/-- A bank as an image is loaded into it: every word that the image does not define is the null word (R91). -/
def bankOf (store : Nat) (img : List Byte) : List Byte :=
  img.take (storeBytes store) ++ List.replicate (storeBytes store - img.length) 0

/-- The stores that a member has (R89): Infuser's is absent on the CX-2048E. -/
def storesThere (s : State) : List Nat := (List.range 10).filter (fun i => i != 9 || s.fuses.member != 3)

/-- The image in a bank of a store. -/
def State.storeBank (s : State) (store : Nat) (bank : Bool) : List Byte := Map.val s.vers.stores (2 * store + bank.toNat) []
def State.setStore (s : State) (store : Nat) (bank : Bool) (img : List Byte) : State :=
  s.modVers (fun v => { v with stores := Map.put [] v.stores (2 * store + bank.toNat) img })

/-- The staging bank of a store: the one that the ACTIVE version does not use. -/
def stagingBank (s : State) (store : Nat) : Bool := !bitAt (s.slotOf s.activeSlot).banks store

/-- A DRAINING version uses the staging bank of a store. -/
def bankBusy (s : State) (store : Nat) : Bool :=
  match drainSlot s with
  | some b => bitAt (s.slotOf b).banks store == stagingBank s store
  | none => false

/-- CS_STAGE_LOAD (R115). -/
def stageLoad (mask : BitVec 10) (data : HostData) (s : State) : Res :=
  match data with
  | none => .fail .dmaError s
  | some img => onStage s (fun g =>
    let stores := bitsSet 10 mask.toNat
    if stores.any (bankBusy s) then .fail .busy s
    else if !csOk s img then .fail .badSignature s
    else .ok 0 (foldNats stores (fun a i => a.setStore i (stagingBank s i) (bankOf i (storeImage img i)))
      (s.setStage (some { g with loaded := g.loaded ||| mask }))))

/-- The domains that hold the named stores. -/
def storeDoms (mask : BitVec 10) (s : State) : List Nat :=
  (if mask.toNat % 512 = 0 then [] else (slicesThere s).map (4 + ·)) ++
  (if bitAt mask 9 then (quadsThere s).map (44 + ·) else [])

def execCsStageLoad (sub : Sub) (buf : Addr) (len : BitVec 32) (storeMask : BitVec 10) (data : HostData) (s : State) :
    Host.Outcome State Fault Refusal :=
  .next (runCommand Cat.csStageLoad sub (pack 384 [(63, 0, buf.toNat), (95, 64, len.toNat), (105, 96, storeMask.toNat)])
    { bad := fun _ => misaligned buf || (match data with
        | some img => segMask img != storeMask.toNat
        | none => false)
      absent := fun s => bitAt storeMask 9 && s.fuses.member == 3
      doms := storeDoms storeMask
      act := stageLoad storeMask data } s)

/-- CS_PARITY_REPAIR (R94): the word is rewritten from a good copy and CORRECTED, or from the bundle image and DEGRADE; the
Infuser store always from the bundle image, which is DEGRADE too (assumption 84). Other sources hold no control store, and a
bank has no word beyond its last. -/
def repairStore (source : BitVec 16) (bank : BitVec 1) (word : BitVec 14) (good : Bool) (s : State) : State :=
  let hi := source.toNat / 4096
  let u := source.toNat / 256 % 16
  let low := source.toNat % 256
  let slice : Bool := hi == 3 && sliceThere s u && inRange low 0x10 0x33
  let inf : Bool := hi == 2 && decide (u < 4) && hbmThere s u && low == 0x14
  let copy := if inf then 0 else low - 0x10
  let store := if inf then 9 else copy % 9
  if s.mode = .reset ∨ !(slice || inf) ∨ bankWords store ≤ word.toNat then s
  else
    let fromBundle := inf || !good
    let w := wordBytes store
    let s1 := if fromBundle then
        match s.dev.bundle with
        | some b => s.setStore store (bank == 1)
            (patch (s.storeBank store (bank == 1)) (w * word.toNat) (Machine.slice (bankOf store (storeImage b store)) (w * word.toNat) w))
        | none => s
      else s
    s1.raise source.toNat 0x060 (if fromBundle then 2 else 1) 1 (copy * 2 ^ 40 + bank.toNat * 2 ^ 32 + word.toNat)

def execCsParityRepair (source : BitVec 16) (bank : BitVec 1) (word : BitVec 14) (copyGood : Bool) (s : State) :
    Host.Outcome State Fault Refusal := .next (repairStore source bank word copyGood s)

/-! ### Commit (R116) -/

/-- The COMMIT vote of the commit in execution. -/
def commitVote (s : State) : Vote := { kind := 5, client := verHandle s.vers.verGen s.vers.nextVer }

/-- Visibility in a slot, written. -/
def AclEntry.setVis (e : AclEntry) (b v : Bool) : AclEntry := if b then { e with vis1 := v } else { e with vis0 := v }

/-- A staged change of one entry, entered in the new slot (R113, R127). -/
def AclEntry.change (e : AclEntry) (new : Bool) (r : StagedRule) : AclEntry :=
  if r.delete then
    let k := e.setVis new false
    if k.vis (!new) then k else AclEntry.free
  else
    let k : AclEntry := { e with value := r.value.getD e.value, mask := r.mask.getD e.mask, action := r.action.getD e.action }
    k.setVis new r.action.isSome

/-- The entries with the FREE slot's visibility as steps 1 and 2 of R116 leave it. -/
def buildAcl (t : Tbl AclEntry) (new : Bool) (g : Stage) : Tbl AclEntry :=
  g.rules.foldl (fun a r => Map.upd AclEntry.free a r.1 (fun e => e.change new r.2))
    (t.map (fun e => (e.1, e.2.setVis new (e.2.vis (!new)))))

/-- The FREE slot with the set's profiles, nodes and banks, under its number (steps 2 and 3). -/
def buildSlot (s : State) (g : Stage) : VSlot :=
  let a := s.slotOf s.activeSlot
  { state := .free, number := s.vers.nextVer, gen := s.vers.verGen
    profiles := g.profiles.foldl (fun t e => Map.ins t e.1 e.2) a.profiles
    nodes := stagedNodes s, banks := a.banks ^^^ g.loaded }

/-- T: 2 µs after step 3, which ends 683 ns and 20 ns per change of the busiest slice after step 1 starts. -/
def switchTimeOf (s : State) (g : Stage) : TimeVal := timeOf (s.time.dev + (2683 + 20 * g.busiest) * nsUnit)

/-- Steps 1 to 4 of R116, once every slice that the commit touches is on. -/
def State.build (s : State) : State :=
  match s.vers.commit, s.vers.stage with
  | some j, some g =>
    if j.waiting || j.switchAt.isSome || !(slicesThere s).all (fun n => s.domOn (4 + n)) then s
    else
      let new := !s.activeSlot
      ((s.modTables (fun t => { t with acl := buildAcl t.acl new g })).setSlot new (buildSlot s g)).setCommit
        (some { j with switchAt := some (switchTimeOf s g) })
  | _, _ => s

/-- A commit takes its COMMIT votes, then builds. -/
def State.startBuild (s : State) (j : CommitJob) : State :=
  (foldNats (slicesThere s) (fun a n => a.takeVote (4 + n) (commitVote s))
    (s.setCommit (some { j with waiting := false, votes := slicesThere s }))).build

/-- A commit's COMMIT votes are withdrawn. -/
def State.dropCommitVotes (s : State) (j : CommitJob) : State :=
  foldNats j.votes (fun a n => a.dropVote (4 + n) (commitVote s)) s

/-- RULESET_COMMIT. -/
def commitSet (queue : QueueNo) (index : BitVec 16) (wait : Bool) (limit : Nat) (s : State) : Res :=
  onStage s (fun _ =>
    let j : CommitJob := { queue := queue, index := index, waiting := true, limitNs := s.tbNs + 1000 * limit, switchAt := none
                           votes := [] }
    if (drainSlot s).isSome then (if wait then .wait (s.setCommit (some j)) else .fail .busy s)
    else .wait (s.startBuild j))

def execRulesetCommit (sub : Sub) (waitLimit : BitVec 32) (wait : BitVec 1) (s : State) : Host.Outcome State Fault Refusal :=
  .next (runCommand Cat.rulesetCommit sub (pack 384 [(31, 0, waitLimit.toNat), (32, 32, wait.toNat)])
    { bad := fun _ => wait == 1 && !inRange waitLimit.toNat 1 1000000
      act := commitSet sub.queue sub.index (wait == 1) waitLimit.toNat } s)

/-- COMMIT_RESUME: no slot is DRAINING any more. -/
def resumeCommit (s : State) : State :=
  match s.vers.commit with
  | some j => if j.waiting && (drainSlot s).isNone && s.domLive then s.startBuild j else s
  | none => s

def execCommitResume (s : State) : Host.Outcome State Fault Refusal := .next (resumeCommit s)

/-- COMMIT_WAIT_LIMIT: BUSY, and the set stays open. -/
def limitCommit (s : State) : State :=
  match s.vers.commit with
  | some j =>
    if j.waiting && decide (j.limitNs ≤ s.tbNs) then (s.setCommit none).finishAt j.queue.toNat j.index .busy 0 0 else s
  | none => s

def execCommitWaitLimit (s : State) : Host.Outcome State Fault Refusal := .next (limitCommit s)

/-- The switch time T of a commit has been reached. -/
def switchDue (s : State) : Option (CommitJob × TimeVal) :=
  match s.vers.commit with
  | none => none
  | some j => match j.switchAt with
    | none => none
    | some t => if ofTime t ≤ s.time.dev then some (j, t) else none

/-- The slot that a header admitted now in a slice enters under: T is an instant of the slice's own copy (R110, R116 step 5). -/
def admitSlot (s : State) (sl : Nat) : Bool :=
  if (s.vers.commit.bind (·.switchAt)).any (fun t => decide (ofTime t ≤ s.sliceDev sl)) then !s.activeSlot else s.activeSlot

/-- SWITCH_TIME (R116 steps 5 and 6). -/
def switchVersions (s : State) : State :=
  match switchDue s with
  | none => s
  | some (j, t) =>
    let old := s.activeSlot
    let new := !old
    let h := verHandle (s.slotOf new).gen (s.slotOf new).number
    let s1 := (s.setSlot new { s.slotOf new with state := .active }).setSlot old { s.slotOf old with state := .draining }
    let s2 := (s1.dropCommitVotes j).modVers (fun v => VerState.advance { v with
      stage := none, commit := none, drainNs := s.tbNs, slowRaised := false })
    let s3 := s2.auditEvent 0x10 ((s.slotOf new).number.setWidth 64) s.qual s.qual t
    s3.finishAt j.queue.toNat j.index .ok 20 (pack 384 [(159, 128, h.toNat), (127, 0, t.toNat)])

def execSwitchTime (s : State) : Host.Outcome State Fault Refusal := .next (switchVersions s)

/-! ### Drain (R117) -/

/-- Headers in flight under a slot, in every slice. -/
def State.inFlight (s : State) (b : Bool) : Nat := ((s.vers.inFlight.filter (fun e => e.1 % 2 == b.toNat)).map (·.2)).sum

/-- A slot's visibility cleared; an entry visible in neither becomes free (R117, R127). -/
def clearVis (t : Tbl AclEntry) (b : Bool) : Tbl AclEntry :=
  t.foldl (fun a e =>
    if e.2.vis b then Map.put AclEntry.free a e.1 (if e.2.vis (!b) then e.2.setVis b false else AclEntry.free) else a) t

/-- VERSION_DRAINED: no header is in flight under the DRAINING slot, and its event has a place. -/
def drained (s : State) : State :=
  match drainSlot s with
  | none => s
  | some b =>
    if s.inFlight b ≠ 0 ∨ !s.canHold 0 ∨ !s.domLive then s
    else
      let v := s.slotOf b
      ((s.modTables (fun t => { t with acl := clearVis t.acl b })).setSlot b VSlot.reset).postHeld 0 8 0
        (pack 320 [(159, 32, s.now.toNat), (31, 0, (verHandle v.gen v.number).toNat)])

def execVersionDrained (s : State) : Host.Outcome State Fault Refusal := .next (drained s)

/-- VER_DRAIN_SLOW: not drained 1 ms after T, once. -/
def drainSlow (s : State) : State :=
  match drainSlot s with
  | none => s
  | some b =>
    if s.vers.slowRaised || decide (s.tbNs < s.vers.drainNs + 1000000) then s
    else (s.modVers (fun v => { v with slowRaised := true })).raise 0x1001 0x062 0 1 (s.slotOf b).number.toNat

def execVerDrainSlow (s : State) : Host.Outcome State Fault Refusal := .next (drainSlow s)

/-! ### Modes and reset (R112, R118) -/

/-- Key profile 0 of the initial version (R101): MAC addresses, L3 addresses, protocol, L4 ports, ingress port, and bytes 74
and 75. -/
def initialProfile : List Extract :=
  [{ off := 0, len := 12 }, { off := 22, len := 16 }, { off := 38, len := 16 }, { off := 54, len := 1 }, { off := 58, len := 4 },
   { off := 72, len := 2 }, { off := 74, len := 2 }]

/-- The initial version, on entry into CONFIGURE from BOOT (R112). -/
def State.initialVersion (s : State) : State :=
  (s.setSlot false { state := .active, number := s.vers.nextVer, gen := s.vers.verGen, profiles := [(0, initialProfile)]
                     nodes := [], banks := 0 }).modVers VerState.advance

/-- Entry into SAFE: a commit that has not acted ends with BAD_MODE, and the open set is discarded (R118). -/
def State.safeVersions (s : State) : State :=
  match s.vers.commit with
  | none => s.setStage none
  | some j =>
    if j.switchAt.isSome then s
    else (((s.dropCommitVotes j).setCommit none).setStage none).finishAt j.queue.toNat j.index .badMode 0 0

/-- Warm reset clears every version; NEXT_VER and its generation are kept (R111, R118). -/
def State.clearVersions (s : State) : State :=
  s.modVers (fun v => { VerState.reset with nextVer := v.nextVer, verGen := v.verGen })

end Sys2Proof.Machine
end

