-- ==== Sys2Proof/Machine/Forward.lean ====
section
/-! DEFINITION. What a frame meets in its pipe and after it (R102 to R107, R121 to R124, R195, R199, R204 to R210, R250):
rule, destination, policer, egress tag, punt, trap, sample and the way to its queue. -/

namespace Sys2Proof.Machine

/-! ### Frame check sequence and checksums -/

/-- One bit of the IEEE 802.3 CRC-32, reflected. -/
def crcBit (c : Nat) : Nat := if c % 2 = 1 then (c / 2) ^^^ 0xEDB88320 else c / 2

/-- CRC-32 over one byte more. -/
def crcByte (c : Nat) (b : Byte) : Nat := (List.range 8).foldl (fun a _ => crcBit a) (c ^^^ b.toNat)

/-- The FCS of some bytes. -/
def crc32 (bs : List Byte) : Nat := (bs.foldl crcByte 0xFFFFFFFF) ^^^ 0xFFFFFFFF

/-- A frame whose last four bytes are its FCS. -/
def sealFcs (bs : List Byte) : List Byte :=
  let body := bs.take (bs.length - 4)
  body ++ leBytes 4 (crc32 body)

/-- Addition of 16-bit words with end-around carry. -/
def onesAdd (a b : Nat) : Nat := (a + b) % 65536 + (a + b) / 65536

/-- A checksum after one 16-bit word changed from `m` to `m'` (RFC 1624). -/
def sumUpdate (hc m m' : Nat) : Nat := 65535 - onesAdd (onesAdd (65535 - hc) (65535 - m)) m'

/-- A checksum field after the 16-bit words of `new` have replaced those at `off`. -/
def fixSum (bs new : List Byte) (off : Nat) (out : List Byte) (sum : Nat) : List Byte :=
  patch out sum (beBytes 2 ((List.range (new.length / 2)).foldl
    (fun a k => sumUpdate a (beAt bs (off + 2 * k) 2) (beAt new (2 * k) 2)) (beAt bs sum 2)))

/-- Whole 16-bit words of a frame replaced, with the checksums at some offsets updated. -/
def rewriteWords (bs new : List Byte) (off : Nat) (sums : List Nat) : List Byte :=
  sums.foldl (fixSum bs new off) (patch bs off new)

/-- The outer L3 header is IPv4. -/
def isV4 (bs : List Byte) (l3 : Nat) : Bool := beAt bs l3 1 / 16 == 4

/-- The frame with TTL or hop limit lowered by 1 (R123). -/
def lowerTtl (bs : List Byte) (l3 : Nat) : List Byte :=
  if isV4 bs l3 then rewriteWords bs (beBytes 2 (beAt bs (l3 + 8) 2 - 256)) (l3 + 8) [l3 + 10]
  else patch bs (l3 + 7) (beBytes 1 (beAt bs (l3 + 7) 1 - 1))

/-- The frame with a DSCP value, ECN unchanged (R208). -/
def setDscp (bs : List Byte) (l3 dscp : Nat) : List Byte :=
  if isV4 bs l3 then rewriteWords bs (slice bs l3 1 ++ beBytes 1 (4 * dscp + beAt bs (l3 + 1) 1 % 4)) l3 [l3 + 10]
  else
    let w := beAt bs l3 2
    patch bs l3 (beBytes 2 (w / 4096 * 4096 + dscp * 64 + w % 64))

/-! ### Traps of the microcode units (R93 to R95, R133) -/

/-- Slot of a trap counter of the slice's stores (Table 13.3). -/
def trapSlot (pipe store cause : Nat) : Nat := 54 * pipe + 6 * store + (cause - 1)

/-- UCODE_ABORT: at most once per store copy per second. -/
def State.ucodeAbort (s : State) (sl copy source mpc : Nat) : State :=
  let quiet := match Map.find (s.slice sl).abortNs copy with
    | some t => decide (s.tbNs < t + 1000000000)
    | none => false
  if quiet then s
  else (s.modSlice sl (fun x => { x with abortNs := Map.ins x.abortNs copy s.tbNs })).raise source 0x061 0 1
    (copy * 2 ^ 40 + mpc)

/-- A trap that abandons a routine at a store copy of a slice. -/
def State.abandon (s : State) (sl pipe store cause mpc : Nat) : State :=
  let s1 := s.countSlice sl (trapSlot pipe store cause) 1
  if cause = 4 then s1 else s1.ucodeAbort sl (9 * pipe + store) (0x3010 + 0x100 * sl + 9 * pipe + store) mpc

/-- The store, cause and micro-PC of a trap that abandons a routine of the parser or a stage (Table 4.2). -/
def abandonedAt : Upset → Option (Nat × Nat × Nat)
  | .none => none
  | .csParity store _ _ _ => if store.toNat ≤ 8 then some (store.toNat, 4, 0) else none
  | .budget store _ mpc => if inRange store.toNat 1 8 then some (store.toNat, 5, mpc.toNat) else none
  | .nullWord store _ mpc => if store.toNat ≤ 8 then some (store.toNat, 6, mpc.toNat) else none
  | .tableParity _ _ => none

/-- The entry of a table that a frame finds failing parity. -/
def upsetAt (u : Upset) (t loc : Nat) : Bool :=
  match u with
  | .tableParity table l => table.toNat == t && l.toNat == loc
  | _ => false

/-- What a lookup runs in: its slice, its pipe, and the upset that the frame meets. -/
structure LookCtx where
  sl : Nat
  pipe : Nat
  upset : Upset

/-- A lookup that reads an entry failing parity takes TABLE_PARITY in a stage that the manual does not name. -/
def State.parityTrap (s : State) (c : LookCtx) : State :=
  (s.countSlice c.sl (trapSlot c.pipe (1 + (s.free 3).toNat) 3) 1).drawn

/-- An entry read at a location: `none` where it fails parity. -/
def State.readAt (s : State) (c : LookCtx) (t loc : Nat) : State × Bool :=
  if upsetAt c.upset t loc then (s.parityTrap c, false) else (s, true)

/-! ### Rules (R102 to R104) -/

/-- The rule that applies to a key: the lowest visible entry that matches. -/
def ruleMatch (s : State) (sl : Nat) (slot : Bool) (key : BitVec 512) : Option (Nat × AclEntry) :=
  s.tables.acl.find? (fun e => e.1 / 16384 == sl && e.2.vis slot && (e.2.value ^^^ key) &&& e.2.mask == 0)

/-- A frame under a rule action (Table 4.8); its queue is that of the class where the action sets none. -/
def Frame.underRule (f : Frame) (a : BitVec 16) : Frame :=
  let cls : ClassNo := if bitAt a 15 then BitVec.ofNat 3 (fld a 14 12) else f.cls
  { f with
    cls := cls
    colour := if bitAt a 11 then (match fld a 10 9 with | 1 => .yellow | 2 => .red | _ => .green) else f.colour
    queue := if bitAt a 8 then BitVec.ofNat 3 (fld a 7 5) else cls }

/-- A rule hit is counted (R104). -/
def State.countRule (s : State) (k : Nat) : State := s.bump (0x3800 + 32 * (k / 16384) + k % 16384 / 512) (k % 512) 1

/-! ### Policing (R204 to R210) -/

/-- The verdict of a policer (R206): its colour, and the policer with its buckets debited. -/
def Policer.verdict (p : Policer) (b : Nat) (pc : Colour) : Colour × Policer :=
  let aware := bitAt p.entry 253
  let need := 65536 * b
  if !bitAt p.entry 254 then
    if (!aware || pc == .green) && decide (need ≤ p.tc) then (.green, { p with tc := p.tc - need })
    else if (!aware || pc != .red) && decide (need ≤ p.tep) then (.yellow, { p with tep := p.tep - need })
    else (.red, p)
  else if (aware && pc == .red) || decide (p.tep < need) then (.red, p)
  else if (aware && pc == .yellow) || decide (p.tc < need) then (.yellow, { p with tep := p.tep - need })
  else (.green, { p with tep := p.tep - need, tc := p.tc - need })

/-- A length with LEN_ADJ, at least 1. -/
def adjusted (len : Nat) (adj : Int) : Nat := max 1 ((len : Int) + adj).toNat

/-- A bucket after the true-up from an estimate to the true length: never below 0 nor above its size (R207). -/
def trueBucket (level size est len : Nat) : Nat := min (level + 65536 * est - 65536 * len) size

/-- The policer after the last byte: every bucket that the verdict debited is trued up. -/
def Policer.trueUp (p : Policer) (c : Colour) (est len : Nat) : Policer :=
  let cbs := 65536 * fld p.entry 127 104
  let epbs := 65536 * fld p.entry 103 80
  let two := bitAt p.entry 254
  { p with
    tc := if c == .green then trueBucket p.tc cbs est len else p.tc
    tep := if c == .yellow || (c == .green && two) then trueBucket p.tep epbs est len else p.tep }

def colourIdx : Colour → Nat
  | .green => 0 | .yellow => 1 | .red => 2

/-- How policing ends: passed on with its colour, dropped, or sent to the miss path (R210). -/
inductive Policed where
  | on (f : Frame)
  | drop
  | miss

/-- The policer of a frame's port and class; the action of its verdict applied (R208). -/
def State.police (s : State) (c : LookCtx) (f : Frame) : State × Policed :=
  match s.port f.port with
  | none => (s, .on f)
  | some x =>
    let sel := Map.val x.polSel f.cls.toNat 0
    if !bitAt sel 31 then (s, .on f)
    else
      let i := 32768 * f.slice + fld sel 14 0
      let r := s.readAt c 0x16 i
      match (if r.2 then Map.find s.tables.policer i else none) with
      | none => (r.1, .miss)
      | some p0 =>
        if !bitAt p0.entry 255 then (r.1, .miss)
        else
          let adj := sfld p0.entry 228 223
          let b := adjusted f.estimate adj
          let v := (p0.refill s.tbNs).verdict b f.colour
          let k := colourIdx v.1
          let act := fld p0.entry (252 - 2 * k) (251 - 2 * k)
          let p := v.2.trueUp v.1 b (adjusted f.bytes.length adj)
          let s1 := ((r.1.modTables (fun t => { t with policer := Map.ins t.policer i p })).countPolicer i (2 * k) 1).countPolicer
            i (2 * k + 1) f.bytes.length
          if act = 2 then (s1.countPolicer i 7 1, .drop)
          else if act = 1 then
            let g : Frame := match f.l3Off with
              | some o => { f with bytes := setDscp f.bytes o (fld p0.entry (246 - 6 * k) (241 - 6 * k)) }
              | none => f
            (s1.countPolicer i 6 1, .on { g with colour := v.1 })
          else (s1, .on { f with colour := v.1 })

/-! ### Destination (R121 to R124, R137) -/

/-- The frame carries an outer VLAN tag. -/
def taggedFrame (bs : List Byte) : Bool := beAt bs 12 2 == 0x8100 || beAt bs 12 2 == 0x88A8

/-- VID of the outer tag; 0 for an untagged or priority-tagged frame. -/
def outerVid (x : Parse) : Nat := if x.flag flVlan1 then x.num 12 2 % 4096 else 0

/-- Fields of a VLAN entry (Table 5.3). -/
def vlanEntry (s : State) (v : Nat) : BitVec 128 := Map.val s.tables.vlan v 0

/-- A HOST lookup in the copy of a frame's quadrant; one that meets a slot failing parity is a miss (R128, R133). -/
def State.hostLook (s : State) (c : LookCtx) (k : HKey) : State × Option (Nat × HostSlot) :=
  let reads := (buckets s k).flatMap (fun b => [b, b + 1, b + 2, b + 3])
  let bad := match c.upset with
    | .tableParity t l => t == 1 && (reads.contains l.toNat || decide (hostSlots ≤ l.toNat))
    | _ => false
  let s1 := if bad then s.parityTrap c else s
  match (if bad then none else hostFind s.tables.host k) with
  | some e => (s1.countSlice c.sl (238 + 2 * k.typ) 1, some e)
  | none => (s1.countSlice c.sl (239 + 2 * k.typ) 1, none)

/-- An LPM lookup, counted. -/
def State.lpmLook (s : State) (c : LookCtx) (v6 : Bool) (addr : Nat) : State × Option LpmRoute :=
  let bits := lpmBits v6
  let found := lpmLookup (lpmTable s v6) bits addr bits
  let bad : Bool := match c.upset with
    | .tableParity t l => t.toNat == (if v6 then 3 else 2) && found.any (fun e => e.loc.setWidth 32 == l)
    | _ => false
  let s1 := if bad then s.parityTrap c else s
  let slot := if v6 then 248 else 246
  match (if bad then none else found) with
  | some r => (s1.countSlice c.sl slot 1, some r)
  | none => (s1.countSlice c.sl (slot + 1) 1, none)

/-- A learn request goes to its owner's queue of 4,096 (R138). -/
def State.askLearn (s : State) (vlan mac p : Nat) : State :=
  let q := ownerOf s { typ := 1, val := vlan * 2 ^ 48 + mac }
  if 4096 ≤ (s.quad q).learnQ.length then s.countQuad q 21 1
  else s.modQuad q (fun x => { x with
    learnQ := x.learnQ ++ [{ vlan := BitVec.ofNat 12 vlan, mac := BitVec.ofNat 48 mac, port := BitVec.ofNat 10 p }] })

/-- The source lookup of a frame (R121 step 2, R137, R139); whether the frame may go on. The owner's engine discards the request
that a frozen entry, or a static one, brings it (R138). -/
def State.sourceLook (s : State) (c : LookCtx) (p vlan mac : Nat) : State × Bool :=
  let r := s.hostLook c { typ := 1, val := vlan * 2 ^ 48 + mac }
  let asks := bitAt s.tables.learnCfg 22 && mac != 0 && !bitAt (BitVec.ofNat 48 mac) 40
  match r.2 with
  | none => (if asks then r.1.askLearn vlan mac p else r.1, true)
  | some (loc, x) =>
    if onPort p x then
      (r.1.modHost loc (fun y => { y with hit := y.hit ||| BitVec.ofNat 4 (2 ^ (p / 256)) }), true)
    else
      let s1 := if asks && (!isStatic x || destMc x) then r.1.askLearn vlan mac p else r.1
      if isStatic x then (s1.countPort p 71 1, true)
      else if frozen x then (s1.countPort p 72 1, !bitAt s.tables.learnCfg 23)
      else (s1, true)

/-- How the stages decide a frame. -/
inductive Fate where
  | drop
  | miss (reason : Nat)
  | unicast (d : Dest)
  | multi (group : BitVec 16) (vlan : BitVec 12)
  | trap
deriving DecidableEq, Repr

/-- A NEXTHOP that is invalid, or fails parity, sends the frame to the miss path (R123). -/
def State.viaNexthop (s : State) (c : LookCtx) (n : Nat) : State × Fate :=
  let r := s.readAt c 0x12 n
  if r.2 && bitAt (Map.val s.tables.nexthop n 0) 127 then (r.1, .unicast (.nexthop (BitVec.ofNat 16 n))) else (r.1, .miss 3)

/-- COUNT of an NHGROUP, and the member that h chooses. -/
def nhCount (s : State) (g : Nat) : Nat := fld (Map.val s.tables.nhgroup g 0) 485 480
def nhMember (s : State) (g k : Nat) : Nat := fld (Map.val s.tables.nhgroup g 0) (16 * k + 15) (16 * k)
def nhPick (s : State) (g : Nat) (h : BitVec 64) : Nat := nhMember s g (h.toNat % nhCount s g)

/-- A routed result (R123). -/
def State.viaResult (s : State) (c : LookCtx) (p kind index : Nat) : State × Fate :=
  match kind with
  | 0 => s.viaNexthop c index
  | 1 =>
    let r := s.readAt c 0x13 index
    if r.2 && decide (0 < nhCount s index) then (r.1, .unicast (.group (BitVec.ofNat 12 index))) else (r.1, .miss 3)
  | 2 => (s.countPort p 68 1, .drop)
  | _ => (s, .miss 3)

/-- A routed frame (R121 step 5, R123). -/
def State.route (s : State) (c : LookCtx) (p : Nat) (x : Parse) : State × Fate :=
  let v6 := x.flag flIpv6
  let addr := if v6 then x.num 38 16 else x.num 50 4
  if x.byte 56 ≤ 1 then (s.countPort p 69 1, .miss 3)
  else
    let r := s.hostLook c { typ := if v6 then 3 else 2, val := addr }
    match r.2 with
    | some (loc, e) =>
      if v6 then
        match Map.find s.tables.host (loc + 1) with
        | some y => r.1.viaResult c p (fld y.entry 103 102) (fld y.entry 101 86)
        | none => (r.1, .miss 3)
      else r.1.viaResult c p (fld e.entry 87 86) (fld e.entry 85 70)
    | none =>
      let l := r.1.lpmLook c v6 addr
      match l.2 with
      | some e => l.1.viaResult c p (fld e.result 17 16) (fld e.result 15 0)
      | none => (l.1, .miss 3)

/-- A multicast group at ingress: an invalid entry, or an empty mask (R124). -/
def State.viaGroup (s : State) (c : LookCtx) (p g vlan : Nat) : State × Fate :=
  let r := s.readAt c 0x14 g
  let e := Map.val s.tables.mcgroup g 0
  if !r.2 || !bitAt e 31 then (r.1, .miss 3)
  else if fld e 15 0 = 0 then (r.1.countPort p 70 1, .drop)
  else (r.1, .multi (BitVec.ofNat 16 g) (BitVec.ofNat 12 vlan))

/-- A bridged frame (R121 step 4, R122). -/
def State.bridge (s : State) (c : LookCtx) (p vlan dmac : Nat) : State × Fate :=
  let v := vlanEntry s vlan
  let r := s.hostLook c { typ := 1, val := vlan * 2 ^ 48 + dmac }
  match r.2 with
  | some (_, x) =>
    if destMc x then r.1.viaGroup c p (destOf x) vlan
    else if destOf x = p then (r.1.countPort p 65 1, .drop)
    else (r.1, .unicast (.port (BitVec.ofNat 10 (destOf x)) (BitVec.ofNat 12 vlan)))
  | none =>
    if bitAt (BitVec.ofNat 48 dmac) 40 then r.1.viaGroup c p (fld v 111 96) vlan
    else match fld v 124 123 with
      | 0 => (r.1.countPort p 66 1).viaGroup c p (fld v 111 96) vlan
      | 1 => (r.1.countPort p 67 1, .drop)
      | _ => (r.1, .miss 3)

/-- ACCEPT refuses a frame (Table 5.2). -/
def refused (accept vid : Nat) : Bool := (accept == 1 && vid == 0) || (accept == 2 && vid != 0)

/-- The VLAN of a frame at its ingress port (R121). -/
def vlanOf (s : State) (p : Nat) (x : Parse) : Nat :=
  if outerVid x = 0 then fld (Map.val s.tables.portVlan p 0) 11 0 else outerVid x

/-- Steps 1 and 2 of R121: the state, and how they end the frame where they do. `early` is what takes the frame without a
destination: a PTP trap, which is not learned from (R250), before the source lookup; a rule miss after it (R137). -/
def State.entryStage (s : State) (c : LookCtx) (p : Nat) (x : Parse) (early : Option Fate) : State × Option Fate :=
  let r := s.readAt c 0x10 p
  let pv := Map.val s.tables.portVlan p 0
  let valid := r.2 && bitAt pv 31
  if valid && refused (fld pv 30 29) (outerVid x) then (r.1.countPort p 64 1, some .drop)
  else if early == some .trap then (r.1, early)
  else if !valid then (r.1, some (early.getD (.miss 3)))
  else
    let vlan := vlanOf s p x
    let v := vlanEntry s vlan
    let r2 := r.1.readAt c 0x11 vlan
    if !r2.2 || !bitAt v 127 then (r2.1, some (early.getD (.miss 3)))
    else
      let src : State × Bool := if bitAt v 125 then r2.1.sourceLook c p vlan (x.num 6 6) else (r2.1, true)
      if !src.2 then (src.1, some .drop) else (src.1, early)

/-- Steps 1 to 5 of R121: the state, and the frame's fate. -/
def State.destination (s : State) (c : LookCtx) (p : Nat) (x : Parse) (early : Option Fate) : State × Fate :=
  let r := s.entryStage c p x early
  match r.2 with
  | some e => (r.1, e)
  | none =>
    let vlan := vlanOf s p x
    let v := vlanEntry s vlan
    if bitAt v 126 && x.num 0 6 == fld v 95 48 && (x.flag flIpv4 || x.flag flIpv6) then r.1.route c p x
    else r.1.bridge c p vlan (x.num 0 6)

/-- The state that the stages before an abandoned one leave: none of R121's steps, steps 1 and 2, or all of them, where
these let the frame go on to the abandoned stage. -/
def State.before (s : State) (c : LookCtx) (p : Nat) (x : Parse) (early : Option Fate) (steps : Nat) : State :=
  match steps with
  | 0 => s
  | 1 =>
    let r := s.entryStage c p x early
    if r.2.isNone then r.1 else s
  | _ =>
    let r := s.destination c p x early
    match r.2 with
    | .unicast _ => r.1
    | .multi _ _ => r.1
    | _ => s

/-! ### Egress form (R122, R123) -/

/-- A port sends frames of a VLAN untagged (R122). -/
def untagged (s : State) (p vlan : Nat) : Bool :=
  let pv := Map.val s.tables.portVlan p 0
  bitAt pv 31 && bitAt pv 28 && fld pv 11 0 == vlan

/-- A frame in the form that a port sends it in a VLAN; the offsets of its inner headers move with the tag. -/
def Frame.tagged (f : Frame) (s : State) (p vlan : Nat) : Frame :=
  let bs := f.bytes
  if taggedFrame bs then
    if untagged s p vlan then
      { f with bytes := bs.take 12 ++ bs.drop 16, ptpOff := f.ptpOff.map (· - 4), l3Off := f.l3Off.map (· - 4) }
    else { f with bytes := patch bs 14 (beBytes 2 (beAt bs 14 2 / 4096 * 4096 + vlan)) }
  else if untagged s p vlan then f
  else { f with bytes := bs.take 12 ++ beBytes 2 0x8100 ++ beBytes 2 vlan ++ bs.drop 12, ptpOff := f.ptpOff.map (· + 4)
                l3Off := f.l3Off.map (· + 4) }

/-- A routed frame takes its NEXTHOP's addresses and loses one of its TTL. -/
def Frame.routed (f : Frame) (e : BitVec 128) : Frame :=
  let b := patch f.bytes 0 (beBytes 6 (fld e 95 48) ++ beBytes 6 (fld e 47 0))
  { f with bytes := match f.l3Off with
      | some o => lowerTtl b o
      | none => b }

/-- The egress port of a decided unicast frame. -/
def destPort (s : State) : Dest → Nat
  | .port p _ => p.toNat
  | .nexthop n => fld (Map.val s.tables.nexthop n.toNat 0) 121 112
  | .group _ => 0x3FF

/-- A NEXTHOP that is not valid when it is used sends the frame to the miss path (R28, R123). -/
def State.usable (s : State) : Dest → Bool
  | .port _ _ => true
  | .nexthop n => bitAt (Map.val s.tables.nexthop n.toNat 0) 127
  | .group _ => true

/-- A unicast frame goes to admission. -/
def State.forward (s : State) (f : Frame) (d : Dest) : State :=
  match d with
  | .port p vlan => s.admitFrame p.toNat (f.tagged s p.toNat vlan.toNat)
  | .nexthop n =>
    let e := Map.val s.tables.nexthop n.toNat 0
    s.admitFrame (fld e 121 112) ((f.routed e).tagged s (fld e 121 112) (fld e 111 100))
  | .group _ => s

/-! ### Multicast admission (R182, R195) -/

def Mcq.reset : Mcq := { frames := [], headSince := none, firstGrant := none, granted := [] }
def Slice.mcqOf (x : Slice) (c : Nat) : Mcq := Map.val x.mcq c Mcq.reset
def State.modMcq (s : State) (sl c : Nat) (f : Mcq → Mcq) : State :=
  s.modSlice sl (fun x => { x with mcq := Map.ins x.mcq c (f (x.mcqOf c)) })

/-- Shared cells charged to a multicast queue. -/
def Mcq.sharedCells (m : Mcq) : Nat := ((m.frames.filter (fun f => f.account == .shared)).map (·.cells)).sum

/-- The residue queue MCR[s][e][c] (R197). -/
def mcrOf (s : State) (sl e c : Nat) : List Frame := Map.val (s.slice sl).mcr (8 * e + c) []
def State.setMcr (s : State) (sl e c : Nat) (l : List Frame) : State :=
  s.modSlice sl (fun x => { x with mcr := Map.put [] x.mcr (8 * e + c) l })

/-- A copy toward slice e is split off (R197): written to spill behind the copies that wait there, or dropped. One that
finds too few write tokens, or no free spill cell, is dropped under R190. -/
def State.splitCopy (s : State) (sl : Nat) (f : Frame) (e : Nat) : State :=
  let c := f.queue.toNat
  let q := sl / 4
  if !(spillOk s sl c f.colour && (s.quad q).spillReady) then s.countSlice sl (272 + c) 1
  else
    let s0 := s.spillRefill q
    match spillRoom s0 q (spillCells f) with
    | some slot => s0.countPort f.port slot 1
    | none =>
      let t := s0.spillTake q (spillCells f)
      (t.1.setMcr sl e c (mcrOf s0 sl e c ++ [{ f.toSpill t.2 with pend := [e] }])).countSlice sl (264 + c) 1

/-- The head of a multicast queue leaves it: its cells are released, since REF has reached 0 (R198). -/
def State.mcPop (s : State) (sl c : Nat) : State :=
  match ((s.slice sl).mcqOf c).frames with
  | [] => s
  | f :: rest => (s.modMcq sl c (fun m => { m with frames := rest })).release f

/-- A frame has reached the head of its multicast queue: copies toward slices whose residue queue is not empty are split
at once (R197), and where copies remain the head's time starts. -/
def State.reachHead (sl c : Nat) : Nat → State → State
  | 0, s => s
  | n + 1, s =>
    match ((s.slice sl).mcqOf c).frames with
    | [] => s.modMcq sl c (fun m => { m with headSince := none, firstGrant := none, granted := [] })
    | f :: rest =>
      let blocked := f.pend.filter (fun e => !(mcrOf s sl e c).isEmpty)
      let left := f.pend.filter (fun e => (mcrOf s sl e c).isEmpty)
      let s1 := blocked.foldl (fun a e => a.splitCopy sl f e) s
      if left.isEmpty then State.reachHead sl c n (s1.mcPop sl c)
      else s1.modMcq sl c (fun m => { m with
        frames := { f with pend := left } :: rest, headSince := some s.tbNs, firstGrant := none, granted := [] })

/-- The next frame of a multicast queue comes to its head. -/
def State.nextHead (s : State) (sl c : Nat) : State :=
  State.reachHead sl c (((s.slice sl).mcqOf c).frames.length + 1) s

/-- A frame at the end of its multicast queue. -/
def State.mcEnqueue (s : State) (f : Frame) : State :=
  let first := ((s.slice f.slice).mcqOf f.queue.toNat).frames.isEmpty
  let s1 := s.modMcq f.slice f.queue.toNat (fun m => { m with frames := m.frames ++ [f] })
  (if first then s1.nextHead f.slice f.queue.toNat else s1).bufVote f.slice

/-- Admission of a multicast frame: its queue is treated as a VOQ that never spills. -/
def State.admitMulti (s : State) (f : Frame) : State :=
  let n := cellsFor f.estimate
  let acc := chooseAccount s f n ((s.slice f.slice).mcqOf f.queue.toNat).sharedCells
  if acc == .none then s.countPort f.port (refuseSlot s f) 1
  else
    let held := ((((s.slice f.slice).mcqOf f.queue.toNat).frames).map (·.cells)).sum
    let g := { f with account := acc, voqCells := held, occupancy := (s.slice f.slice).sharedUsed }
    let s1 := s.charge g acc n true
    match trueUp s1 g n with
    | some r => r.1.mcEnqueue r.2
    | none => (s1.charge g acc n false).countPort f.port 100 1

/-- A frame sent to a multicast group. -/
def State.multicast (s : State) (f : Frame) (g : BitVec 16) (vlan : BitVec 12) : State :=
  let mask := fld (Map.val s.tables.mcgroup g.toNat 0) 15 0
  let pend := (bitsSet 16 mask).filter (sliceThere s)
  if pend.isEmpty then s
  else s.admitMulti { f with group := some g, vlan := some vlan, flood := true, pend := pend, cutThrough := false }

/-! ### The miss path (R105 to R107) -/

/-- Tokens of a punt meter now, in 10^-9 frame. -/
def puntTokens (x : Port) (now : Nat) : Nat := min (x.puntTok + fld x.punt 55 32 * (now - x.puntNs)) (1000000000 * fld x.punt 31 16)

/-- What every item of a received frame carries. -/
def rxItem (f : Frame) : ItemInfo :=
  { stamp := f.stamp, flowId := f.flowId, version := f.version, origLen := f.bytes.length, capLen := f.bytes.length
    inPort := f.inPort, outPort := 0x3FF, qual := f.stampQual, reason := 0, outcome := f.outcome.toNat, prio := 0, dir := false
    kind := 1 }

/-- Strainer priority of a punt (Table 4.9). -/
def puntPrio (x : Port) (reason : Nat) : BitVec 3 :=
  BitVec.ofNat 3 (if reason = 2 then fld x.parse 5 3 else if reason = 3 then fld x.parse 2 0 else fld x.parse 8 6)

/-- A punt: the meter, which refuses every punt while its RATE is 0 (R107), then the Strainer. -/
def State.punt (s : State) (x : Port) (f : Frame) (reason : Nat) : State :=
  let tok := puntTokens x s.tbNs
  if tok < 1000000000 || fld x.punt 55 32 = 0 then
    (s.modPort f.port (fun y => { y with puntTok := tok, puntNs := s.tbNs })).countPort f.port 56 1
  else
    let r := (s.modPort f.port (fun y => { y with puntTok := tok - 1000000000, puntNs := s.tbNs })).offerItem (f.port / 256)
      { rxItem f with reason := reason, prio := puntPrio x reason } f.bytes
    r.1.countPort f.port (if r.2 then 55 else 57) 1

/-- A frame from a PRIV port, and the target of its DEFAULT_ACTION where that is REDIRECT: by the attributes in force when it
started (R84). -/
def Frame.priv (f : Frame) : Bool := bitAt f.attr 31
def Frame.redirect (f : Frame) : Option Nat := if f.priv && fld f.attr 29 28 == 1 then some (fld f.attr 9 0) else none

/-- A frame on the miss path: a punt, or DEFAULT_ACTION of a PRIV port. -/
def State.missPath (s : State) (f : Frame) (reason : Nat) : State :=
  match s.port f.port with
  | none => s
  | some x =>
    if !f.priv then s.punt x f reason
    else if fld f.attr 29 28 = 1 then
      (s.countPort f.port 59 1).admitFrame (fld f.attr 9 0) { f with cls := 0, queue := 0, colour := .green }
    else s.countPort f.port 58 1

/-! ### Samples and PTP traps (R199, R250) -/

/-- One more eligible frame of a direction: the countdown after it, and whether the frame is sampled. -/
def countdown (n left : Nat) : Nat × Bool := if left ≤ 1 then (n, true) else (left - 1, false)

/-- A receive sample. -/
def State.sampleRx (s : State) (f : Frame) (outPort : Nat) : State :=
  match s.port f.port with
  | none => s
  | some x =>
    if !bitAt x.sample 63 then s
    else
      let c := countdown (fld x.sample 55 32 + 1) x.rxCount
      let s1 := s.modPort f.port (fun y => { y with rxCount := c.1 })
      if !c.2 then s1
      else
        let cap := min (64 * (fld x.sample 62 60 + 1)) f.bytes.length
        let r := s1.offerItem (f.port / 256) { rxItem f with
          capLen := cap, outPort := outPort, prio := BitVec.ofNat 3 (fld x.sample 59 57), kind := 2 } (f.bytes.take cap)
        r.1.countPort f.port (if r.2 then 107 else 109) 1

/-- The PTP addresses of R250. -/
def ptpMacs : List Nat :=
  [0x011B19000000, 0x0180C200000E, 0x01005E000181, 0x01005E00006B, 0x333300000181, 0x33330000006B]

/-- A frame that TRAP_MODE traps. -/
def ptpTraps (x : Port) (f : Frame) : Bool :=
  f.ptpOff.isSome && (match fld x.ptpCfg 29 28 with
    | 1 => ptpMacs.contains (beAt f.bytes 0 6)
    | 2 => true
    | _ => false)

/-- The trap's item, under the port's meter of 64 frames. -/
def State.ptpTrap (s : State) (f : Frame) : State :=
  match s.port f.port with
  | none => s
  | some x =>
    let tok := min (x.trapTok + fld x.ptpCfg 15 0 * (s.tbNs - x.trapNs)) 64000000000
    if tok < 1000000000 then (s.modPort f.port (fun y => { y with trapTok := tok, trapNs := s.tbNs })).countPort f.port 114 1
    else
      let r := (s.modPort f.port (fun y => { y with trapTok := tok - 1000000000, trapNs := s.tbNs })).offerItem (f.port / 256)
        { rxItem f with
          stamp := ptpStamp f.stamp x.rate (sfld x.ptpDelay 31 16), prio := BitVec.ofNat 3 (fld x.ptpCfg 27 25), kind := 3 } f.bytes
      r.1.countPort f.port (if r.2 then 113 else 114) 1

/-! ### End of the pipe (R199, R203, R261) -/

/-- OUT_PORT of a receive sample: the single egress port, where there is one. -/
def fatePort (s : State) (f : Frame) : Fate → Nat
  | .unicast d => destPort s d
  | .miss _ => f.redirect.getD 0x3FF
  | .drop => 0x3FF
  | .multi _ _ => 0x3FF
  | .trap => 0x3FF

/-- A fate as the tables stand when it is carried out. -/
def State.settled (s : State) : Fate → Fate
  | .unicast d => if s.usable d then .unicast d else .miss 3
  | fate => fate

/-! ### Cut-through (R187) -/

/-- An egress port holds no cell: nothing queued, nothing granted, nothing in transmission. -/
def Port.egressEmpty (y : Port) : Bool := y.tx.isNone && y.egr.all (fun e => e.2.queue.isEmpty && e.2.granted == 0)

/-- A frame's copy may have started before its last byte: a unicast frame, under the conditions of R187. A tracked frame comes here
once its Infuser decision has returned. -/
def mayCut (s : State) (f : Frame) (fate : Fate) : Bool :=
  match fate with
  | .unicast d =>
    let q := destPort s d
    let v := voqIndex f.slice q f.queue.toNat
    match s.port q, s.port f.port with
    | some y, some x => (egressBlocked s v q f).isNone && (s.voq v).frames == 0 && (s.voq v).spillCount == 0 && y.egressEmpty &&
        !y.paused s.tbNs f.queue.toNat && decide (y.rate ≤ x.rate)
    | _, _ => false
  | _ => false

/-- A frame's copy has cut through. -/
def State.cutsThrough (s : State) (f : Frame) (fate : Fate) : Bool := f.started && mayCut s f (s.settled fate)

/-- The fate of a frame is carried out. -/
def State.carryOut (s : State) (f : Frame) (fate : Fate) : State :=
  match fate with
  | .drop => s
  | .miss reason => s.missPath f reason
  | .unicast d => s.forward f d
  | .multi g vlan => s.multicast f g vlan
  | .trap => s.ptpTrap f

/-- A frame at the end of its pipe, or of Infuser: audited, sampled, then sent to its fate. `orig` are the bytes as they
were received. -/
def State.endOfPipe (s : State) (f : Frame) (orig : List Byte) (fate0 : Fate) : State :=
  let fate := s.settled fate0
  if f.errored then s.carryOut f fate
  else
    let a := s.auditFrame { port := f.port, attr := f.attr, tx := false, cls := f.cls.toNat, stamp := f.stamp, qual := f.stampQual
                            flowId := f.flowId, version := f.version, bytes := orig, term := false }
    let s1 := a.1.sampleRx { f with bytes := orig } (fatePort s f fate)
    if a.2 then s1.carryOut f fate else s1

/-- A tracked frame after Infuser: its copy may cut through from its decision on (R187); one found errored whose copy has not
started is dropped (R76). -/
def State.endTracked (s : State) (f : Frame) (orig : List Byte) (fate : Fate) : State :=
  let cut := s.cutsThrough f fate
  if f.errored && !cut then s else s.endOfPipe { f with cutThrough := cut } orig fate

end Sys2Proof.Machine
end

