-- ==== Sys2Proof/Machine/Flows.lean ====
section
/-! DEFINITION. Infuser (R143 to R170): finding, fetching, parking, installing and evicting flow records, the flow program,
and the rows of its partitions. -/

namespace Sys2Proof.Machine

/-! ### Keys and places (R146 to R148) -/

/-- A canonical flow key (R146). -/
structure FKey where
  v6 : Bool
  proto : Nat
  scope : Nat
  addrLo : Nat
  portLo : Nat
  addrHi : Nat
  portHi : Nat
deriving DecidableEq, Repr

/-- The canonical key of two endpoints, and whether the first is LO. -/
def mkKey (v6 : Bool) (proto scope a1 p1 a2 p2 : Nat) : FKey × Bool :=
  if a1 * 65536 + p1 ≤ a2 * 65536 + p2 then
    ({ v6 := v6, proto := proto, scope := scope, addrLo := a1, portLo := p1, addrHi := a2, portHi := p2 }, true)
  else ({ v6 := v6, proto := proto, scope := scope, addrLo := a2, portLo := p2, addrHi := a1, portHi := p1 }, false)

/-- The key of a header, and whether its source is LO. -/
def FlowHdr.keyed (h : FlowHdr) : FKey × Bool :=
  mkKey h.v6 h.proto.toNat h.scope.toNat h.srcAddr.toNat h.srcPort.toNat h.dstAddr.toNat h.dstPort.toNat
def FlowHdr.key (h : FlowHdr) : FKey := h.keyed.1
def FlowHdr.port (h : FlowHdr) : Nat := h.frame.port

/-- The key fields of a record (Table 6.2). -/
def FKey.fields (k : FKey) : List (Nat × Nat × Nat) :=
  [(1013, 1012, if k.v6 then 2 else 1), (1011, 1004, k.proto), (1003, 992, k.scope), (991, 864, k.addrLo), (863, 736, k.addrHi),
   (735, 720, k.portLo), (719, 704, k.portHi)]

/-- The key of a record. -/
def recKey (r : BitVec 1024) : FKey :=
  { v6 := fld r 1013 1012 == 2, proto := fld r 1011 1004, scope := fld r 1003 992, addrLo := fld r 991 864
    portLo := fld r 735 720, addrHi := fld r 863 736, portHi := fld r 719 704 }

/-- FH (R147). -/
def flowHashOf (s : State) (k : FKey) : BitVec 64 :=
  Config.flowHash s.dev.flowKey
    (pack 288 [(287, 160, k.addrLo), (159, 144, k.portLo), (143, 16, k.addrHi), (15, 0, k.portHi)])
    (BitVec.ofNat 8 k.proto) (BitVec.ofNat 12 k.scope) k.v6

/-- Home quadrant and partition, candidate buckets' first locations, and fingerprint (R147). -/
def homeQuad (s : State) (fh : BitVec 64) : Nat := if s.fuses.member = 2 then fld fh 63 63 else fld fh 63 62
def homePart (s : State) (fh : BitVec 64) : Nat := 4 * homeQuad s fh + fld fh 61 60
def bucketLoc (s : State) (fh : BitVec 64) (b : Nat) : Nat :=
  8388608 * homeQuad s fh + 4 * (524288 * fld fh 61 60 + (if b = 0 then fld fh 18 0 else fld fh 37 19))
def fprint (fh : BitVec 64) : BitVec 8 := BitVec.ofNat 8 (fld fh 45 38)

/-- The four slots of a bucket, and the candidate slots in location order. -/
def bucketOf (b : Nat) : List Nat := [b, b + 1, b + 2, b + 3]
def candidates (s : State) (fh : BitVec 64) : List Nat :=
  let a := bucketLoc s fh 0
  let b := bucketLoc s fh 1
  if a = b then bucketOf a else if a < b then bucketOf a ++ bucketOf b else bucketOf b ++ bucketOf a

/-- The partition that holds a location, and a location's quadrant. -/
def locPart (loc : Nat) : Nat := loc / 2097152
def locQuad (loc : Nat) : Nat := loc / 8388608

/-- A record that its directory entry reaches. -/
def flowAt (s : State) (loc : Nat) : Option FlowSlot := (Map.find s.tables.flows loc).filter (·.reachable)

/-- Profiles, and their function bits (Table 6.6). -/
def profileAt (s : State) (n : Nat) : BitVec 512 := Map.val s.tables.profiles n 0
def pfValid (p : BitVec 512) : Bool := bitAt p 511
def pfLb (p : BitVec 512) : Bool := bitAt p 510
def pfNat (p : BitVec 512) : Bool := bitAt p 509
def pfTelem (p : BitVec 512) : Bool := bitAt p 508
def pfFilter (p : BitVec 512) : Bool := bitAt p 507
def pfDnat (p : BitVec 512) : Bool := fld p 431 430 == 1

/-- The profile number that a port selects. -/
def portProfile (s : State) (p : Nat) : Nat :=
  match s.port p with
  | some x => fld x.flow 23 18
  | none => 0

/-- The record's fields that a flow program reads. -/
def recProfile (r : BitVec 1024) : Nat := fld r 1019 1014
def recTwin (r : BitVec 1024) : Bool := bitAt r 47
def recPeer (r : BitVec 1024) : Nat := fld r 25 0
def recFlowId (r : BitVec 1024) : Nat := fld r 687 624

/-! ### Partitions (R143, R151, R155, R156) -/

def Partition.reset : Partition := { input := [], cache := [], fetches := [] }
def State.part (s : State) (p : Nat) : Partition := Map.val (s.quad (p / 4)).parts (p % 4) Partition.reset
def State.modPart (s : State) (p : Nat) (f : Partition → Partition) : State :=
  s.modQuad (p / 4) (fun q => { q with parts := Map.ins q.parts (p % 4) (f (Map.val q.parts (p % 4) Partition.reset)) })

/-- Miss-pending entries of a quadrant in use. -/
def pendUsed (s : State) (q : Nat) : Nat :=
  ((List.range 4).map (fun k => ((s.part (4 * q + k)).fetches.map (fun f => f.parked.length)).sum)).sum

/-- PEND_PEAK follows the entries in use. -/
def State.pendMark (s : State) (q : Nat) : State := s.modQuad q (fun x => { x with pendPeak := max x.pendPeak (pendUsed s q) })

/-- A location's set of the context cache. -/
def sameSet (a b : Nat) : Bool := a % 1024 == b % 1024

/-- Ways of a location's set that are pinned: a fetch is outstanding (R151). -/
def pinnedWays (x : Partition) (loc : Nat) : Nat := x.fetches.countP (fun f => !f.waiting && sameSet f.loc loc)
def pinned (s : State) (loc : Nat) : Bool := (s.part (locPart loc)).fetches.any (fun f => f.loc == loc && !f.install)

/-- The outstanding fetches and waiting fills of every partition. -/
def State.allFetches (s : State) : List Fetch := (List.range 16).flatMap (fun p => (s.part p).fetches)

/-- A way is found for a location: the least recently used context of its set gives way where all 16 are taken. -/
def Partition.makeWay (x : Partition) (loc : Nat) : Partition :=
  if x.cache.countP (sameSet loc) + pinnedWays x loc < 16 then x
  else match x.cache.reverse.find? (sameSet loc) with
    | some old => { x with cache := x.cache.erase old }
    | none => x

/-- A context is used: it is the most recent of its set. -/
def Partition.touch (x : Partition) (loc : Nat) : Partition :=
  if x.cache.contains loc then { x with cache := loc :: x.cache.erase loc }
  else let y := x.makeWay loc; { y with cache := loc :: y.cache }

/-- A slice counter of a partition (slots 224 to 234), and a trap of the Infuser store. -/
def State.countPart (s : State) (p slot : Nat) : State := s.countSlice p slot 1
def State.infuserTrap (s : State) (q cause : Nat) : State := s.countQuad q (63 + cause) 1

/-! ### Leaving Infuser -/

/-- A header leaves Infuser with its fate; its version slot holds one header fewer (R117). -/
def State.leaveInfuser (s : State) (h : FlowHdr) (f : Frame) (fate : Fate) : State :=
  (s.modVers (fun v => { v with
    inFlight := Map.upd 0 v.inFlight (2 * h.frame.slice + h.slot.toNat) (· - 1) })).endTracked f h.orig fate

/-- A header dropped in Infuser, counted at its ingress port. -/
def State.dropHdr (s : State) (h : FlowHdr) (slot : Nat) : State := (s.countPort h.port slot 1).leaveInfuser h h.frame .drop

/-- A header that its own record's filter drops: its audit record carries the flow ID (R168, R264). -/
def State.dropUnder (s : State) (h : FlowHdr) (r : BitVec 1024) : State :=
  (s.countPort h.port 89 1).leaveInfuser h { h.frame with flowId := BitVec.ofNat 64 (recFlowId r) } .drop

/-- The member that a header takes from a group: a miss where the group is empty, the member invalid, or an entry read fails parity
(R123, R133). -/
def memberFate (s : State) (h : FlowHdr) (g : BitVec 12) (m : Nat) : Fate :=
  if nhCount s g.toNat = 0 ∨ upsetAt h.upset 0x13 g.toNat = true ∨ upsetAt h.upset 0x12 m = true ∨
      bitAt (Map.val s.tables.nexthop m 0) 127 = false then .miss 3
  else .unicast (.nexthop (BitVec.ofNat 16 m))

/-- A header reads the entry failing parity that it meets: its group's, or its member's (R133). -/
def memberTrap (s : State) (h : FlowHdr) (g : BitVec 12) (m : Nat) : Bool :=
  upsetAt h.upset 0x13 g.toNat || (decide (0 < nhCount s g.toNat) && upsetAt h.upset 0x12 m)
def State.memberRead (s : State) (h : FlowHdr) (g : BitVec 12) (m q : Nat) : State :=
  if memberTrap s h g m then s.infuserTrap q 3 else s

/-- A header without a record leaves with its destination: a group without a pin chooses MEMBER[h mod COUNT]. -/
def State.leavePlain (s : State) (h : FlowHdr) : State :=
  match h.dest with
  | .group g =>
    let m := nhPick s g.toNat h.h
    (s.memberRead h g m (homeQuad s (flowHashOf s h.key))).leaveInfuser h h.frame (memberFate s h g m)
  | d => s.leaveInfuser h h.frame (.unicast d)

/-- The no-state path (R157). -/
def State.noState (s : State) (h : FlowHdr) : State :=
  if bitAt (profileAt s (portProfile s h.port)) 506 then s.dropHdr h 87 else (s.countPort h.port 86 1).leavePlain h

/-! ### Parking and fetching (R92, R154 to R156) -/

/-- The record that holds a key. -/
def flowFind (s : State) (k : FKey) : Option (Nat × FlowSlot) :=
  ((candidates s (flowHashOf s k)).filterMap (fun loc => (flowAt s loc).map (fun x => (loc, x)))).find? (fun e =>
    recKey e.2.record == k)

/-- Two headers are of one flow: under one key, or under the two keys of one translated flow. -/
def sameFlow (s : State) (a b : FlowHdr) : Bool :=
  a.key == b.key || (match flowFind s a.key, flowFind s b.key with
    | some x, some y => recFlowId x.2.record == recFlowId y.2.record
    | _, _ => false)

/-- Headers of a header's flow that are parked. -/
def parkedOf (s : State) (h : FlowHdr) : Nat := (s.allFetches.map (fun f => f.parked.countP (sameFlow s · h))).sum

/-- A header with its micro-state saved (Table 4.3): the record's address, and registers that only the microcode determines, which
are free values. -/
def FlowHdr.saved (s : State) (h : FlowHdr) (loc : Nat) : FlowHdr :=
  let v := s.free 530
  { h with upset := .none, ctx := pack 576 [(573, 560, fld v 529 516), (552, 552, h.slot.toNat), (551, 548, 1), (547, 544, fld v 515 512),
      (543, 512, loc), (511, 0, fld v 511 0)] }

/-- A header whose routine goes on. -/
def FlowHdr.restored (h : FlowHdr) : FlowHdr := { h with ctx := 0 }

/-- A header that starts a fetch, or a fill that waits for a way: `install`, of a new flow. -/
def State.startFetch (s : State) (h : FlowHdr) (loc : Nat) (install : Bool) : State :=
  let p := locPart loc
  let q := p / 4
  if 61440 ≤ pendUsed s q then (s.countPart p 228).noState h
  else
    let wait := install || decide (16 ≤ pinnedWays (s.part p) loc)
    let s1 := if wait then s.countPart p 227 else (s.countPart p 225).infuserTrap q 1
    (s1.drawn.modPart p (fun x =>
      let y := if wait then x else { x.makeWay loc with cache := (x.makeWay loc).cache.erase loc }
      { y with fetches := y.fetches ++ [{ loc := loc, issueNs := s.tbNs, waiting := wait, install := install, parked := [h.saved s loc] }] })).pendMark q

/-- A header parks behind headers of its flow, or behind a fetch of the slot that it would read. -/
def State.follow (s : State) (h : FlowHdr) (f : Fetch) : State :=
  let p := locPart f.loc
  if 65536 ≤ pendUsed s (p / 4) ∨ 64 ≤ parkedOf s h then s.dropHdr h 85
  else (s.drawn.modPart p (fun x => { x with
    fetches := x.fetches.map (fun g => if g == f then { g with parked := g.parked ++ [h.saved s f.loc] } else g) })).pendMark (p / 4)

/-- A header needs a record that is not cached. -/
def State.needRecord (s : State) (h : FlowHdr) (loc : Nat) : State :=
  match (s.part (locPart loc)).fetches.find? (fun f => f.loc == loc && !f.install) with
  | some f => s.follow h f
  | none => s.startFetch h loc false

/-- Headers of a flow are parked already: the next one parks behind them (R155, R156). -/
def behind (s : State) (h : FlowHdr) : Option Fetch := s.allFetches.find? (fun f => f.parked.any (fun g => g.key == h.key))

/-- Where a header's walk of its candidate slots ends (R150). -/
inductive Walk where
  | hit (loc : Nat) (x : FlowSlot)
  | fetch (loc : Nat)
  | absent

/-- The walk: VALID slots with the fingerprint, in location order. A slot whose directory entry fails parity is passed
over. -/
def walk (s : State) (u : Upset) (key : FKey) (fp : BitVec 8) : List Nat → Walk
  | [] => .absent
  | loc :: r =>
    match flowAt s loc with
    | none => walk s u key fp r
    | some x =>
      if x.fp != fp || upsetAt u 4 loc then walk s u key fp r
      else if (s.part (locPart loc)).cache.contains loc then
        (if recKey x.record == key then .hit loc x else walk s u key fp r)
      else .fetch loc

/-! ### Removing a record (R160, R165, R169) -/

/-- The other record of a translated flow. -/
def peerOf (s : State) (loc : Nat) (x : FlowSlot) : Option Nat :=
  match Map.find s.tables.flows (recPeer x.record) with
  | some y =>
    if recTwin x.record != recTwin y.record && recPeer y.record == loc && recFlowId x.record == recFlowId y.record then
      some (recPeer x.record)
    else none
  | none => none

/-- One record, its directory entry and its context. -/
def State.clearFlow (s : State) (loc : Nat) : State :=
  (s.modTables (fun t => { t with flows := Map.del t.flows loc })).modPart (locPart loc) (fun x => { x with cache := x.cache.erase loc })

/-- The translated port that a record holds: its profile, translated address and port. -/
def snatOf (x : FlowSlot) : Nat × BitVec 128 × BitVec 16 :=
  (recProfile x.record, BitVec.ofNat 128 (fld x.record 191 64), BitVec.ofNat 16 (fld x.record 63 48))

/-- A record removed with its twin; its translated port is freed. -/
def State.dropFlow (s : State) (loc : Nat) : State :=
  match Map.find s.tables.flows loc with
  | none => s
  | some x =>
    let free := fun (a : State) (y : FlowSlot) => a.modTables (fun t => { t with snat := t.snat.erase (snatOf y) })
    match peerOf s loc x with
    | none => s.clearFlow loc
    | some m =>
      match Map.find s.tables.flows m with
      | some y => free ((s.clearFlow loc).clearFlow m) (if recTwin x.record then y else x)
      | none => s.clearFlow loc

/-- PKTS and OCTETS of a flow event (Table 6.9). -/
def flowTotals (r : BitVec 1024) : Nat × Nat := (fld r 383 344 + fld r 343 304, fld r 303 248 + fld r 247 192)

/-- A flow event of a kind that the profile enables (R170). -/
def State.postFlow (s : State) (kind prof id loc : Nat) (totals : Nat × Nat) : State :=
  if !bitAt (profileAt s prof) (500 - kind) then s
  else s.postDropped (fld s.tables.flowCfg 15 0) 2 0 (fun dropped => pack 320
    [(319, 256, s.tbNs), (255, 192, id), (191, 188, kind), (187, 182, prof), (181, 156, loc), (151, 112, totals.1),
     (111, 64, totals.2), (63, 0, dropped)])

/-- A record leaves with an event: evicted (2) or expired (3). -/
def State.loseFlow (s : State) (loc kind : Nat) : State :=
  match Map.find s.tables.flows loc with
  | none => s
  | some x => (s.dropFlow loc).postFlow kind (recProfile x.record) (recFlowId x.record) loc (flowTotals x.record)

/-! ### Placing a record (R159, R160) -/

/-- A slot may be evicted. -/
def eligible (s : State) (keep : List Nat) (loc : Nat) : Bool :=
  match flowAt s loc with
  | none => false
  | some x => !bitAt x.record 1022 && !recTwin x.record && !pinned s loc && !keep.contains loc

/-- The slot with the highest AGE; ties to the lowest location. -/
def oldestOf (s : State) : List Nat → Option Nat
  | [] => none
  | loc :: r =>
    match oldestOf s r with
    | none => some loc
    | some b =>
      let age := fun k => ((flowAt s k).map (fun x => x.age.toNat)).getD 0
      if age loc < age b then some b else some loc

/-- The free slots of a bucket. -/
def freeIn (s : State) (b : Nat) : List Nat := (bucketOf b).filter (fun loc => (flowAt s loc).isNone)

/-- The slot of a new record: a free one, or one to evict. A location of `keep` is not eligible. -/
inductive Spot where
  | free (loc : Nat)
  | evict (loc : Nat)
  | none

def spotFor (s : State) (fh : BitVec 64) (oldest : Bool) (keep : List Nat) : Spot :=
  let b0 := bucketLoc s fh 0
  let b1 := bucketLoc s fh 1
  let b := if (freeIn s b0).length < (freeIn s b1).length then b1 else b0
  match (freeIn s b).head? with
  | some loc => .free loc
  | none =>
    let l := (candidates s fh).filter (eligible s keep)
    let pick := if oldest then oldestOf s l else l[(s.free 32).toNat % l.length]?
    match pick with
    | some loc => .evict loc
    | none => .none

/-- The spot is made free: an eviction removes its record, counted at the partition and posted. A slot whose directory entry has
failed parity is free too, and its flow is removed with its twin and port. -/
def State.takeSpot (s : State) : Spot → Option (State × Nat)
  | .free loc => some (s.dropFlow loc, loc)
  | .evict loc => some (((s.drawn.loseFlow loc 2).countPart (locPart loc) 233), loc)
  | .none => none

/-- A spot's location. -/
def Spot.loc : Spot → Nat
  | .free l => l
  | .evict l => l
  | .none => 0

/-- The set of a spot has no way that can be taken; `own` is a location whose way is in use already. -/
def noWay (s : State) (spot : Spot) (own : Option Nat) : Bool :=
  match spot with
  | .none => false
  | _ => decide (16 ≤ pinnedWays (s.part (locPart spot.loc)) spot.loc +
      (if own.any (fun l => locPart l == locPart spot.loc && sameSet l spot.loc) then 1 else 0))

/-- How placing a record ends: in place at its location, waiting for a way of a location's set (R151), or without a slot. -/
inductive Placed where
  | done (s : State) (loc : Nat)
  | wait (loc : Nat)
  | full

/-- A record written to its slot, its directory entry and the context cache. -/
def State.putFlow (s : State) (loc : Nat) (fp : BitVec 8) (r : BitVec 1024) : State :=
  (s.modTables (fun t => { t with flows := Map.ins t.flows loc { record := r, fp := fp, age := 0, reachable := true } })).modPart
    (locPart loc) (fun x => x.touch loc)

/-- The next flow ID of a quadrant (R149). -/
def State.drawFlowId (s : State) (q : Nat) : State × Nat :=
  let n := (s.quad q).flowSeq
  let wrap := n.toNat + 1 = 2 ^ 50
  let s1 := s.modQuad q (fun x => { x with flowSeq := if wrap then 1 else x.flowSeq + 1 })
  (if wrap then s1.raise (0x2015 + 0x100 * q) 0x070 0 1 q else s1, s.dev.deviceId.toNat * 2 ^ 52 + q * 2 ^ 50 + n.toNat)

/-- An install token of a quadrant: 62.5 M installs per second, 64 at most, kept in 1/16 install (R159). -/
def State.installToken (s : State) (q : Nat) : Option State :=
  let x := s.quad q
  let tok := min (x.installTok + (s.tbNs - x.installNs)) 1024
  if tok < 16 then none else some (s.modQuad q (fun y => { y with installTok := tok - 16, installNs := s.tbNs }))

/-! ### Translation (R164 to R166) -/

/-- What an install translates: the address and port chosen, and the side. -/
structure Xlate where
  addr : Nat
  port : Nat
  hiSide : Bool
deriving DecidableEq, Repr

/-- SNAT ports of a quadrant's share: how many, and the i-th. -/
def shareCount (s : State) (q : Nat) (p : BitVec 512) : Nat :=
  let n := (quadsThere s).length
  let range := fld p 399 384 + 1 - fld p 415 400
  (range + n - 1 - q) / n
def sharePort (s : State) (q : Nat) (p : BitVec 512) (i : Nat) : Nat := fld p 415 400 + q + i * (quadsThere s).length

/-- The first free port of the scan of up to 64 ports (R165). -/
def snatPort (s : State) (q prof addr start : Nat) : Option Nat :=
  let p := profileAt s prof
  let m := shareCount s q p
  if m = 0 then none
  else ((List.range (min 64 m)).map (fun i => sharePort s q p ((start + i) % m))).find? (fun n =>
    !s.tables.snat.contains (prof, BitVec.ofNat 128 addr, BitVec.ofNat 16 n))

/-- The family of a flow is the pool's. -/
def natFamily (p : BitVec 512) (k : FKey) : Bool := bitAt p 429 == k.v6

/-- The translated side: the originator under SNAT, the responder under DNAT. -/
def xHi (p : BitVec 512) (origLo : Bool) : Bool := if pfDnat p then origLo else !origLo

/-- The key of the twin: the translated tuple; and whether the endpoint that stays is LO. -/
def twinKey (k : FKey) (x : Xlate) : FKey × Bool :=
  if x.hiSide then mkKey k.v6 k.proto k.scope k.addrLo k.portLo x.addr x.port
  else mkKey k.v6 k.proto k.scope k.addrHi k.portHi x.addr x.port

/-- The original endpoint of the translated side. -/
def xOrig (k : FKey) (x : Xlate) : Nat × Nat := if x.hiSide then (k.addrHi, k.portHi) else (k.addrLo, k.portLo)

/-- NAT fields of a primary, once its twin's place is known. -/
def xFields (x : Xlate) (peer : Nat) : List (Nat × Nat × Nat) :=
  [(191, 64, x.addr), (63, 48, x.port), (46, 46, x.hiSide.toNat), (25, 0, peer)]

/-- The twin's record: the same flow ID, profile and times, the original endpoint, and PEER_LOC back. -/
def twinRecord (r : BitVec 1024) (k : FKey) (x : Xlate) (origLo : Bool) (peer : Nat) : BitVec 1024 :=
  let t := twinKey k x
  let o := xOrig k x
  let origStays := origLo == x.hiSide
  pack 1024 (t.1.fields ++
    [(1023, 1023, 1), (1022, 1022, fld r 1022 1022), (1021, 1021, (if origStays then t.2 else !t.2).toNat),
     (1019, 1014, recProfile r), (687, 624, recFlowId r), (623, 560, fld r 623 560), (559, 496, fld r 559 496),
     (191, 64, o.1), (63, 48, o.2), (47, 47, 1), (46, 46, t.2.toNat), (25, 0, peer)])

/-- A primary placed at a location gets its twin, at `keep` where that is given. -/
def State.putTwin (s : State) (loc : Nat) (k : FKey) (x : Xlate) (origLo : Bool) (keep : Option Nat) : Placed :=
  match Map.find s.tables.flows loc with
  | none => .full
  | some y =>
    let fh := flowHashOf s (twinKey k x).1
    let p := profileAt s (recProfile y.record)
    let spot := match keep with
      | some m => Spot.free m
      | none => spotFor s fh (bitAt p 505) [loc]
    if noWay s spot (some loc) then .wait spot.loc
    else match s.takeSpot spot with
      | none => .full
      | some (s1, m) =>
        let r := (xFields x m).foldl (fun a f => setFld a f.1 f.2.1 f.2.2) y.record
        .done ((s1.putFlow m (fprint fh) (twinRecord r k x origLo loc)).putFlow loc y.fp r) loc

/-- A SNAT port is taken. -/
def State.takePort (s : State) (prof : Nat) (x : Xlate) : State :=
  s.modTables (fun t => { t with snat := t.snat ++ [(prof, BitVec.ofNat 128 x.addr, BitVec.ofNat 16 x.port)] })

/-- The L4 checksum of a frame that a rewrite updates. -/
def l4Sum (h : FlowHdr) (o : Nat) : List Nat :=
  if h.proto = 6 then [o + 16]
  else if h.proto = 17 then (if !h.v6 && beAt h.frame.bytes (o + 6) 2 == 0 then [] else [o + 6])
  else []

/-- One endpoint of a frame replaced, with the checksums of R166. -/
def xRewrite (h : FlowHdr) (isSrc : Bool) (addr port : Nat) (f : Frame) : Frame :=
  match f.l3Off with
  | none => f
  | some l3 =>
    let sums := match h.l4Off with
      | some o => l4Sum h o
      | none => []
    let b1 := if h.v6 then rewriteWords f.bytes (beBytes 16 addr) (l3 + (if isSrc then 8 else 24)) sums
      else rewriteWords f.bytes (beBytes 4 addr) (l3 + (if isSrc then 12 else 16)) ([l3 + 10] ++ sums)
    match h.l4Off with
    | some o =>
      if h.proto = 6 ∨ h.proto = 17 then
        { f with bytes := rewriteWords b1 (beBytes 2 port) (o + (if isSrc then 0 else 2)) sums }
      else { f with bytes := b1 }
    | none => { f with bytes := b1 }

/-! ### Connection-state filtering (R168, Tables 6.7 and 6.8) -/

/-- How a header is judged: dropped, passed with a next state and FIN flags, or passed with its record installed anew. -/
inductive Judged where
  | drop
  | pass (st : Nat) (finO finR : Bool)
  | again
deriving DecidableEq, Repr

/-- Table 6.8, its rows taken in order. -/
def filterRow (st : Nat) (orig zone : Bool) (flags : BitVec 8) (finO finR : Bool) : Judged :=
  let synBit := bitAt flags 1
  let ack := bitAt flags 4
  let rst := bitAt flags 2
  let fin := bitAt flags 0
  let syn := synBit && !ack
  let synAck := synBit && ack
  match st with
  | 1 => if syn && orig then .pass 1 finO finR else if synAck && !orig then .pass 2 finO finR
         else if rst then .pass 6 finO finR else .drop
  | 2 => if ack && !synBit && orig then .pass 3 finO finR else if synAck && !orig then .pass 2 finO finR
         else if rst then .pass 6 finO finR else .drop
  | 3 => if fin && !synBit then .pass 4 (finO || orig) (finR || !orig) else if rst then .pass 6 finO finR
         else if synBit then .drop else .pass 3 finO finR
  | 4 => if fin && (if orig then !finO else !finR) then .pass 5 (finO || orig) (finR || !orig)
         else if rst then .pass 6 finO finR else if synBit then .drop else .pass 4 finO finR
  | 5 => if rst then .pass 6 finO finR else if synBit then .drop else .pass 5 finO finR
  | 6 => if syn && orig && zone then .again else if rst then .pass 6 finO finR else .drop
  | 7 => if orig then .pass 7 finO finR else .pass 8 finO finR
  | 8 => .pass 8 finO finR
  | _ => .drop

/-- The state that a first header installs as; `none` where it installs nothing (Table 6.7). -/
def installState (p : BitVec 512) (proto flags : BitVec 8) : Option Nat :=
  if proto ≠ 6 then some 7
  else if bitAt flags 1 && !bitAt flags 4 && !bitAt flags 2 && !bitAt flags 0 then some 1
  else if bitAt p 503 then some 3
  else none

/-- The header's port lies in a zone that may install (R168). -/
def zoneOk (s : State) (p : BitVec 512) (port : Nat) : Bool :=
  match s.port port with
  | some x => bitAt p (501 + fld x.flow 17 17)
  | none => false

/-- Idle time in seconds of a record (Table 6.8). -/
def idleOf (p : BitVec 512) (r : BitVec 1024) : Nat :=
  match fld r 415 412 with
  | 1 => fld p 479 464 | 2 => fld p 479 464 | 4 => fld p 479 464 | 5 => fld p 479 464 | 6 => fld p 447 432
  | 7 => fld p 463 448 | 8 => fld p 463 448 | _ => fld p 495 480

/-! ### The flow program (R150, R163 to R168) -/

/-- A record's pin of a group holds: its NEXTHOP is still a member (R163). -/
def pinHeld (s : State) (r : BitVec 1024) (g : BitVec 12) : Bool :=
  bitAt r 447 && fld r 443 432 == g.toNat && (List.range (nhCount s g.toNat)).any (fun k => nhMember s g.toNat k == fld r 431 416)

/-- The member that a header takes under a record. -/
def pinMember (s : State) (h : FlowHdr) (p : BitVec 512) (r : BitVec 1024) (g : BitVec 12) : Nat :=
  if pfLb p && pinHeld s r g then fld r 431 416 else nhPick s g.toNat h.h

/-- The routed result of a header under a record, with the pin of R163: the destination, the record, and whether a pin was
made. -/
def pinDest (s : State) (h : FlowHdr) (p : BitVec 512) (r : BitVec 1024) : Fate × BitVec 1024 × Bool :=
  match h.dest with
  | .group g =>
    let m := pinMember s h p r g
    let pins := pfLb p && decide (0 < nhCount s g.toNat) && !upsetAt h.upset 0x13 g.toNat
    (memberFate s h g m, if pins then setFld (setFld (setFld r 447 447 1) 443 432 g.toNat) 431 416 m else r,
      pins && !pinHeld s r g)
  | d => (.unicast d, r, false)

/-- The trap of that result's reads. -/
def State.pinRead (s : State) (h : FlowHdr) (p : BitVec 512) (r : BitVec 1024) (q : Nat) : State :=
  match h.dest with
  | .group g => s.memberRead h g (pinMember s h p r g) q
  | _ => s

/-- A saturating addition to a field. -/
def satField (r : BitVec 1024) (hi lo n : Nat) : BitVec 1024 := setFld r hi lo (sat (hi + 1 - lo) (fld r hi lo + n))

/-- LAST_NS, ports and counters of a record after a header that it passed (R167). -/
def passRecord (s : State) (h : FlowHdr) (p : BitVec 512) (orig : Bool) (r : BitVec 1024) : BitVec 1024 :=
  let r1 := setFld r 559 496 s.tbNs
  let r2 := if orig then setFld r1 495 486 h.port else setFld r1 485 476 h.port
  if !pfTelem p then r2
  else if orig then satField (satField r2 383 344 1) 303 248 h.orig.length
  else satField (satField r2 343 304 1) 247 192 h.orig.length

/-- The frame as Infuser's decision rewrites it (R166): the endpoint that XSIDE names, of a header from the originator of a flow that
has a twin; or the endpoint of the twin that was hit. -/
def xFrame (s : State) (h : FlowHdr) (v : Option Via) (loc : Nat) (x : FlowSlot) (orig : Bool) : Frame :=
  match v with
  | some w => xRewrite h w.isSrc w.addr.toNat w.port.toNat h.frame
  | none =>
    if orig && (peerOf s loc x).isSome then
      xRewrite h (h.keyed.2 != bitAt x.record 46) (fld x.record 191 64) (fld x.record 63 48) h.frame
    else h.frame

/-- A record passes a header: it is updated, and the header leaves with its decision. `fresh`: the header installs it. -/
def State.passHdr (s : State) (h : FlowHdr) (loc : Nat) (x : FlowSlot) (v : Option Via) (orig fresh : Bool) : State :=
  let prof := recProfile x.record
  let p := profileAt s prof
  let d := pinDest s h p x.record
  let r := passRecord s h p orig d.2.1
  let s0 := s.pinRead h p x.record (locQuad loc)
  let s1 := if d.2.2 && !fresh then s0.bump 0x38 prof 1 else s0
  let s2 := (s1.modTables (fun t => { t with flows := Map.ins t.flows loc { x with record := r, age := 0 } })).modPart (locPart loc)
    (fun y => y.touch loc)
  let f : Frame := match d.1 with
    | .unicast _ => xFrame s h v loc x orig
    | _ => h.frame
  s2.leaveInfuser h { f with flowId := BitVec.ofNat 64 (recFlowId r) } d.1

/-- A CLOSED record installed anew (Table 6.8): a new flow ID, shared with its twin, no port of the old flow, and fresh
function state apart from the translation. -/
def State.reinstall (s : State) (h : FlowHdr) (loc : Nat) (x : FlowSlot) (v : Option Via) : State :=
  let q := locQuad loc
  match s.installToken q with
  | none => (s.countPart (locPart loc) 231).noState h
  | some s1 =>
    let i := s1.drawFlowId q
    let r0 := setFld (setFld (setFld (setFld x.record 447 410 0) 383 192 0) 495 476 0) 687 624 i.2
    let r := setFld (setFld r0 623 560 s.tbNs) 415 412 1
    let s2 := i.1.countPart (locPart loc) 230
    let s3 := match peerOf s loc x with
      | some m => s2.modTables (fun t => { t with
          flows := Map.adjust t.flows m (fun y => { y with record := setFld (setFld y.record 687 624 i.2) 623 560 s.tbNs }) })
      | none => s2
    (s3.postFlow 1 (recProfile r) i.2 loc (0, 0)).passHdr h loc { x with record := r } v true true

/-- The flow program on a record. -/
def State.program (s : State) (h : FlowHdr) (loc : Nat) (x : FlowSlot) (v : Option Via) : State :=
  let p := profileAt s (recProfile x.record)
  let orig := match v with
    | some w => w.fromOrig
    | none => h.keyed.2 == bitAt x.record 1021
  if !pfFilter p then s.passHdr h loc x v orig false
  else match filterRow (fld x.record 415 412) orig (zoneOk s p h.port) h.tcpFlags (bitAt x.record 411) (bitAt x.record 410) with
    | .drop => s.dropUnder h x.record
    | .again => s.reinstall h loc x v
    | .pass st fo fr =>
      let r := setFld (setFld (setFld x.record 415 412 st) 411 411 fo.toNat) 410 410 fr.toNat
      s.passHdr h loc { x with record := r } v orig false

/-! ### Installing (R159, R160, R164) -/

/-- The record that a header installs, before its functions run. -/
def newRecord (s : State) (h : FlowHdr) (prof id st : Nat) : BitVec 1024 :=
  pack 1024 (h.key.fields ++
    [(1023, 1023, 1), (1021, 1021, h.keyed.2.toNat), (1019, 1014, prof), (687, 624, id), (623, 560, s.tbNs), (559, 496, s.tbNs),
     (415, 412, st)])

/-- The translation that a header's install chooses (R164): `none` where SNAT finds no port. -/
def chooseXlate (s : State) (h : FlowHdr) (prof : Nat) (fh : BitVec 64) : Option Xlate :=
  let p := profileAt s prof
  let k := h.key
  let origLo := h.keyed.2
  let n := fld fh 31 0 % (fld p 428 421 + 1)
  let addr := if k.v6 then (fld p 383 256 + n) % 2 ^ 128 else (fld p 287 256 + n) % 2 ^ 32
  let hi := xHi p origLo
  if pfDnat p then some { addr := addr, port := if hi then k.portHi else k.portLo, hiSide := hi }
  else (snatPort s (homeQuad s fh) prof addr (s.free 16).toNat).map (fun n => { addr := addr, port := n, hiSide := hi })

/-- An install with its slot, translation and twin: the records in place, and the primary's location. -/
def State.installAt (s : State) (h : FlowHdr) (prof st : Nat) (fh : BitVec 64) (spot : Spot) (x : Option Xlate) : Placed :=
  match s.takeSpot spot with
  | none => .full
  | some (s1, loc) =>
    let i := s1.drawFlowId (homeQuad s fh)
    let s2 := i.1.putFlow loc (fprint fh) (newRecord s h prof i.2 st)
    match x with
    | none => .done s2 loc
    | some t => match s2.putTwin loc h.key t h.keyed.2 none with
      | .done a l => .done (if pfDnat (profileAt s prof) then a else a.takePort prof t) l
      | other => other

/-- A new flow: FILTER's install rules, a slot, a translation, an install token, then the record and its program. A twin that finds
no slot leaves the flow uninstalled, as a primary without one does (assumption 85). -/
def State.newFlow (s : State) (h : FlowHdr) : State :=
  let prof := portProfile s h.port
  let p := profileAt s prof
  let fh := flowHashOf s h.key
  let part := homePart s fh
  if (s.port h.port).isNone || !pfValid p then s.dropHdr h 83
  else
    let st := if pfFilter p then (if zoneOk s p h.port then installState p h.proto h.tcpFlags else none) else some 0
    match st with
    | none => s.dropHdr h 88
    | some st =>
      let spot := spotFor s fh (bitAt p 505) []
      let translate := pfNat p && natFamily p h.key
      let s0 := if pfNat p && !natFamily p h.key then s.bump 0x38 (128 + prof) 1 else s
      match spot with
      | .none => (s0.countPart part 232).noState h
      | _ =>
        if noWay s spot none then s.startFetch h spot.loc true
        else match s0.installToken (part / 4) with
          | none => (s0.countPart part 231).noState h
          | some s1 =>
            match (if translate then (chooseXlate s1 h prof fh).map some else some none) with
            | none =>
              (((s0.drawn.bump 0x38 (64 + prof) 1).postFlow 4 prof 0 spot.loc (0, 0))).noState h
            | some x =>
              match (if translate then s1.drawn else s1).installAt h prof st fh spot x with
              | .full => (s0.countPart part 232).noState h
              | .wait loc => s.startFetch h loc true
              | .done s2 loc =>
                match Map.find s2.tables.flows loc with
                | none => s2.noState h
                | some y =>
                  ((s2.countPart part 230).postFlow 1 prof (recFlowId y.record) loc (0, 0)).agents.passHdr h loc y none true true

/-! ### Headers (R150, R166) -/

/-- A header that hit a twin runs on its primary; `none` where the primary is gone. -/
def State.toPrimary (s : State) (h : FlowHdr) (v : Via) : Option State :=
  match flowAt s v.primary with
  | none => none
  | some x =>
    if recPeer x.record != v.twin || recTwin x.record then none
    else if (s.part (locPart v.primary)).cache.contains v.primary then some (s.program h v.primary x (some v))
    else some (s.needRecord { h with via := some v } v.primary)

/-- What a header takes from the twin that it hit. -/
def viaOf (h : FlowHdr) (loc : Nat) (x : FlowSlot) : Via :=
  let hiSide := bitAt x.record 46
  { primary := recPeer x.record, twin := loc, isSrc := h.keyed.2 != hiSide, addr := BitVec.ofNat 128 (fld x.record 191 64)
    port := BitVec.ofNat 16 (fld x.record 63 48), fromOrig := h.keyed.2 == bitAt x.record 1021 }

/-- A header walks the slots of its own key. `fresh`: it has not been parked. -/
def State.runOwn (s : State) (h : FlowHdr) (fresh : Bool) : State :=
  let fh := flowHashOf s h.key
  let l := candidates s fh
  let s0 := if l.any (upsetAt h.upset 4) then s.infuserTrap (homeQuad s fh) 3 else s
  match walk s0 h.upset h.key (fprint fh) l with
  | .hit loc x =>
    let s1 := if fresh then s0.countPart (homePart s fh) 224 else s0
    if recTwin x.record then
      ((s1.modPart (locPart loc) (fun y => y.touch loc)).toPrimary h (viaOf h loc x)).getD (s1.newFlow h)
    else s1.program h loc x none
  | .fetch loc => s0.needRecord h loc
  | .absent => s0.newFlow h

/-- A header in its partition: behind the headers of its flow that are parked; on the primary of the twin that it hit, which may have
gone meanwhile (R173); or on the slots of its key. -/
def State.runHeader (s : State) (h : FlowHdr) (fresh : Bool) : State :=
  match behind s h with
  | some f => s.follow h f
  | none => match h.via with
    | some v => (s.toPrimary h v).getD (s.runOwn { h with via := none } fresh)
    | none => s.runOwn h fresh

/-- Infuser runs headers of a quadrant: in RUN, while its domain is on. -/
def infuserRuns (s : State) (q : Nat) : Bool := hbmThere s q && s.mode == .run && s.domOn (44 + q)

/-- A trap that abandons the routine of a header in Infuser (R109, R161): nothing is written, and the frame takes the miss path. -/
def State.abandonHdr (s : State) (h : FlowHdr) (q cause mpc : Nat) : State :=
  let s1 := (s.infuserTrap q cause).countPort h.port 54 1
  let s2 := if cause = 6 then s1.ucodeAbort (4 * q) 36 (0x2014 + 0x100 * q) mpc else s1
  s2.leaveInfuser h h.frame (.miss 4)

/-- A header's routine runs, or goes on, with the trap that it meets (R93). -/
def State.runUpset (s : State) (h : FlowHdr) (q : Nat) (u : Upset) (fresh : Bool) : State :=
  match u with
  | .csParity _ _ _ _ => s.abandonHdr h q 4 0
  | .nullWord _ _ mpc => s.abandonHdr h q 6 mpc.toNat
  | .tableParity _ _ => s.runHeader { h with upset := u } fresh
  | .budget _ _ _ => s.runHeader h fresh
  | .none => s.runHeader h fresh

/-- INFUSER_HEADER: the oldest header of a partition's input queue. -/
def takeHeader (p : Nat) (u : Upset) (s : State) : State :=
  match (s.part p).input with
  | [] => s
  | h :: rest =>
    if !infuserRuns s (p / 4) then s
    else (s.modPart p (fun x => { x with input := rest })).runUpset h (p / 4) u true

def execInfuserHeader (partition : SliceNo) (upset : Upset) (s : State) : Host.Outcome State Fault Refusal :=
  .next (takeHeader partition.toNat upset s)

/-! ### Fetches (R154, R158) -/

/-- Parked headers whose routines go on in order, each with the trap that it meets. -/
def State.resumeAll (q : Nat) : List FlowHdr → List Upset → State → State
  | [], _, s => s
  | h :: hs, us, s => State.resumeAll q hs us.tail (s.runUpset h.restored q (us.headD .none) false)

/-- A fetch or fill that ends leaves the miss-pending table. -/
def State.endFetch (s : State) (p : Nat) (f : Fetch) : State :=
  s.modPart p (fun x => { x with fetches := x.fetches.erase f })

/-- While a set has a way that is not pinned, the fills that wait for one go on in order. A new flow's, and one whose slot holds no
record any more, have nothing to fetch, and their headers run. -/
def State.wakeWaiting (p loc : Nat) : Nat → State → State
  | 0, s => s
  | n + 1, s =>
    match (s.part p).fetches.find? (fun f => f.waiting && sameSet f.loc loc) with
    | none => s
    | some f =>
      if 16 ≤ pinnedWays (s.part p) loc then s
      else if !f.install && (flowAt s f.loc).isSome && !(s.part p).cache.contains f.loc then
        State.wakeWaiting p loc n (((s.countPart p 225).infuserTrap (p / 4) 1).modPart p (fun x =>
          let y := x.makeWay f.loc
          { y with fetches := y.fetches.map (fun g => if g == f then { g with waiting := false, issueNs := s.tbNs } else g) }))
      else State.wakeWaiting p loc n ((s.endFetch p f).resumeAll (p / 4) f.parked [])

/-- The way of a location's set has unpinned. -/
def State.unpinned (s : State) (p loc : Nat) : State := s.wakeWaiting p loc (s.part p).fetches.length

/-- A fetch outstanding at a location of a partition. -/
def fetchAt (s : State) (p loc : Nat) : Option Fetch := (s.part p).fetches.find? (fun f => f.loc == loc && !f.waiting)

/-- The record's key differs from a header's that waits for it and walks its own slots. -/
def falseMatch (s : State) (loc : Nat) (h : FlowHdr) : Bool :=
  h.via.isNone && (flowAt s loc).any (fun x => recKey x.record != h.key)

/-- The record at a location that fails its error code is cleared, with its directory entry (R158). -/
def State.loseRecord (s : State) (p loc : Nat) : State :=
  let q := p / 4
  (((s.dropFlow loc).countQuad q 36 1).infuserTrap q 3).raise (0x2010 + 0x100 * q + p % 4) 0x063 2 1 (4 * 2 ^ 40 + q * 2 ^ 36 + loc)

/-- FETCH_RETURN: the way is filled, and the parked headers resume in order, each with the trap that its routine meets. -/
def returnFetch (p loc : Nat) (ecc : FetchEcc) (upsets : List Upset) (s : State) : State :=
  match fetchAt s p loc with
  | none => s
  | some f =>
    if !infuserRuns s (p / 4) then s
    else
      let s1 := s.endFetch p f
      let s2 := match ecc with
        | .good => s1
        | .corrected => s1.raise (0x2010 + 0x100 * (p / 4) + p % 4) 0x072 1 1 loc
        | .uncorrectable => s1.loseRecord p loc
      let s3 := if (flowAt s2 loc).isSome then s2.modPart p (fun x => x.touch loc) else s2
      ((s3.countSlice p 226 (f.parked.countP (falseMatch s3 loc))).resumeAll (p / 4) f.parked upsets).unpinned p loc

def execFetchReturn (partition : SliceNo) (loc : BitVec 25) (result : FetchResult) (s : State) :
    Host.Outcome State Fault Refusal := .next (returnFetch partition.toNat loc.toNat result.ecc result.upsets s)

/-- FLOW_FETCH_TIMEOUT: 20 µs after its issue a fetch is abandoned; its headers take the no-state path in order. -/
def abandonFetch (p loc : Nat) (s : State) : State :=
  match fetchAt s p loc with
  | none => s
  | some f =>
    if !infuserRuns s (p / 4) || decide (s.tbNs < f.issueNs + 20000) then s
    else
      let s1 := ((s.endFetch p f).countPart p 229).raise (0x2010 + 0x100 * (p / 4) + p % 4) 0x071 2 1 loc
      (f.parked.foldl (fun a h => a.noState h.restored) s1).unpinned p loc

def execFlowFetchTimeout (partition : SliceNo) (loc : BitVec 25) (s : State) : Host.Outcome State Fault Refusal :=
  .next (abandonFetch partition.toNat loc.toNat s)

/-! ### The sweep (R169, R174) -/

/-- What a sweep does to one slot. -/
def State.sweepSlot (s : State) (loc : Nat) : State :=
  match Map.find s.tables.flows loc with
  | none => s
  | some x =>
    if !x.reachable then s.dropFlow loc
    else
      let idle := idleOf (profileAt s (recProfile x.record)) x.record
      if !bitAt x.record 1022 && !recTwin x.record && decide (0 < idle) &&
          decide (fld x.record 559 496 + 1000000000 * idle < s.tbNs) then
        (s.loseFlow loc 3).countPart (locPart loc) 234
      else s.modTables (fun t => { t with flows := Map.adjust t.flows loc (fun y => { y with
        age := if y.age = 63 then 63 else y.age + 1 }) })

/-- The sweep of a partition that is due: once per second of device time. -/
def sweepDue (s : State) (p : Nat) : Option Nat := nextMultiple secUnit (Map.val s.tables.sweepMark p s.tables.sweepBase) s.time.dev

/-- FLOW_SWEEP of a partition, in RUN, at the oldest second that has been reached and not swept for. -/
def sweep (p : Nat) (s : State) : State :=
  match sweepDue s p with
  | none => s
  | some mark =>
    if !infuserRuns s (p / 4) then s
    else State.agents ((s.tables.flows.filter (fun e => locPart e.1 == p)).foldl (fun a e => a.sweepSlot e.1)
      (s.modTables (fun t => { t with sweepMark := Map.ins t.sweepMark p mark })))

def execFlowSweep (partition : SliceNo) (s : State) : Host.Outcome State Fault Refusal := .next (sweep partition.toNat s)

end Sys2Proof.Machine
end

