-- ==== Sys2Proof/Machine/Pause.lean ====
section
/-! DEFINITION. Received pause and PFC, the watchdog on them, and the repeat of XOFF (R80 to R82). -/

namespace Sys2Proof.Machine

/-- What a MAC does with arriving frames runs while every lane of the port is UP. -/
def macUp (s : State) (p : Nat) : Bool := s.domLive && lanesIn s p .up

/-- Pause quanta in ns at the port rate, rounded up: 512 bit times each. -/
def quantaNs (x : Port) (quanta : Nat) : Nat := (512 * quanta + x.rate - 1) / x.rate

/-- A class whose pause time runs. -/
def PauseState.runs (now : Nat) (a : PauseState) : Bool :=
  match a.untilNs with
  | some t => decide (now < t)
  | none => false

/-- A class released: an XON, the end of its pause time, or a storm whose action is to ignore PFC. -/
def PauseState.release (a : PauseState) : PauseState := { a with untilNs := none, since := none }

/-- An XOFF honoured: the pause time runs from now; a pause that has not ended goes on. -/
def PauseState.xoff (now ns : Nat) (a : PauseState) : PauseState :=
  { a with untilNs := some (now + ns), since := if a.runs now then a.since else some now, lastXoff := some now }

/-- What quanta do to a class. During a storm with STORM_ACTION 0 received PFC is ignored; the XOFF still counts against
the storm's end. The manual leaves two points open (assumption 80): during a storm with STORM_ACTION 1 received PFC is
honoured; and a pause that runs when PFC_RX_EN or PAUSE_RX_EN is cleared lasts until its time ends. -/
def pauseClass (x : Port) (now quanta : Nat) (a : PauseState) : PauseState :=
  if a.storm && !bitAt x.guard 62 then (if quanta = 0 then a else { a with lastXoff := some now })
  else if quanta = 0 then a.release
  else a.xoff now (quantaNs x quanta)

/-- Every received frame of good length, code and FCS counts with its octets (Table 3.9). -/
def State.countRx (s : State) (p octets : Nat) : State := (s.countPort p 0 octets).countPort p 1 1

/-- A class ignores received PFC: it storms with STORM_ACTION 0 (R82). -/
def stormIgnores (x : Port) (c : Nat) : Bool := (x.pauseOf c).storm && !bitAt x.guard 62

/-- PFC_RECEIVE: each class that the frame names is honoured where PFC_RX_EN has it, and counted where it is honoured; a frame
that names another is counted as ignored. A port in hold-down discards it (R79). While the link is down for another reason, and
in CONFIGURE, the frame is still consumed at the MAC (assumption 80). -/
def takePfc (p : Nat) (enable : BitVec 8) (quanta : List (BitVec 16)) (octets : Nat) (s : State) : State :=
  match s.port p with
  | none => s
  | some x =>
    if !macUp s p then s
    else if x.held then (s.countRx p octets).countPort p 18 1
    else
      let named := bitsSet 8 enable.toNat
      let s1 := foldNats (named.filter (fun c => bitAt x.cfg (40 + c))) (fun a c =>
        let b := a.modPort p (fun y => y.modPause c (pauseClass x s.tbNs (quanta.getD c 0).toNat))
        if stormIgnores x c then b else b.countPort p (8 + c) 1)
        (s.countRx p octets)
      if named.all (fun c => bitAt x.cfg (40 + c)) then s1 else s1.countPort p 16 1

def execPfcReceive (port : PortNo) (enable : BitVec 8) (quanta : List (BitVec 16)) (octets : Nat) (s : State) :
    Host.Outcome State Fault Refusal := .next (takePfc port.toNat enable quanta octets s)

/-- PAUSE_RECEIVE: every class, where PAUSE_RX_EN is 1. -/
def takePause (p : Nat) (quanta : BitVec 16) (octets : Nat) (s : State) : State :=
  match s.port p with
  | none => s
  | some x =>
    if !macUp s p then s
    else if x.held then (s.countRx p octets).countPort p 18 1
    else
      let s1 := s.countRx p octets
      if !bitAt x.cfg 15 then s1.countPort p 16 1
      else (foldNats classes (fun a c => a.modPort p (fun y => y.modPause c (pauseClass x s.tbNs quanta.toNat))) s1).countPort p 7 1

def execPauseReceive (port : PortNo) (quanta : BitVec 16) (octets : Nat) (s : State) : Host.Outcome State Fault Refusal :=
  .next (takePause port.toNat quanta octets s)

/-- PAUSE_EXPIRY: the pause time of a class has ended. -/
def pauseEnds (p c : Nat) (s : State) : State :=
  match s.port p with
  | none => s
  | some x => if s.reached (x.pauseOf c).untilNs then s.modPort p (fun y => y.modPause c PauseState.release) else s

def execPauseExpiry (port : PortNo) (cls : ClassNo) (s : State) : Host.Outcome State Fault Refusal :=
  .next (pauseEnds port.toNat cls.toNat s)

/-- WD_TIME and WD_RECOVER in ns (Table 3.5). -/
def wdTime (x : Port) : Nat := 1000000 * fld x.guard 61 48
def wdRecover (x : Port) : Nat := 1000000 * fld x.guard 47 34

/-- A class of a port storms now. -/
def storms (s : State) (x : Port) (c : Nat) : Bool :=
  let a := x.pauseOf c
  s.domLive && bitAt x.guard 63 && bitAt x.cfg (40 + c) && !a.storm && a.runs s.tbNs && s.reached (a.since.map (· + wdTime x))

/-- PFC_STORM: STORM is set, the fault is raised, and the storm action is taken. -/
def stormStarts (p c : Nat) (s : State) : State :=
  match s.port p with
  | none => s
  | some x =>
    if !storms s x c then s
    else
      let drop := bitAt x.guard 62
      let s1 := (s.modPort p (fun y => y.modPause c (fun a =>
        let b := { a with storm := true }
        if drop then b else b.release))).raise (macSource p) 0x043 0 (s.portGenOf p).toNat (p + 65536 * c)
      if drop then s1.discardToward p 36 [c] else s1

def execPfcStorm (port : PortNo) (cls : ClassNo) (s : State) : Host.Outcome State Fault Refusal :=
  .next (stormStarts port.toNat cls.toNat s)

/-- PFC_STORM_END: no XOFF for WD_RECOVER. -/
def stormEnds (p c : Nat) (s : State) : State :=
  match s.port p with
  | none => s
  | some x =>
    if (x.pauseOf c).storm && s.reached ((x.pauseOf c).lastXoff.map (· + wdRecover x)) then
      s.modPort p (fun y => y.modPause c (fun a => { a with storm := false }))
    else s

def execPfcStormEnd (port : PortNo) (cls : ClassNo) (s : State) : Host.Outcome State Fault Refusal :=
  .next (stormEnds port.toNat cls.toNat s)

/-- TB_NS of the last XOFF that holds for an IPC: its own PFC frame, or the port's last pause frame. -/
def lastXoffSent (x : Port) (c : Nat) : Option Nat :=
  if bitAt x.cfg (32 + c) then (x.ipcOf c).xoffNs
  else (x.ipc.filterMap (fun e => e.2.xoffNs)).foldl (fun a t => some (max t (a.getD 0))) none

/-- PFC_XOFF_REPEAT: half of the pause time of quanta 0xFFFF has passed while the IPC stays paused; an XOFF that was not
sent for want of a link is due at once. -/
def repeatXoff (p c : Nat) (s : State) : State :=
  match s.port p with
  | none => s
  | some x =>
    let due := match lastXoffSent x c with
      | none => true
      | some t => decide (t + quantaNs x 65535 / 2 ≤ s.tbNs)
    if (x.ipcOf c).paused && lossless x c && due then s.sendPause p c true else s

def execPfcXoffRepeat (port : PortNo) (cls : ClassNo) (s : State) : Host.Outcome State Fault Refusal :=
  .next (repeatXoff port.toNat cls.toNat s)

end Sys2Proof.Machine
end

