-- ==== Sys2Proof/Machine/Pipeline.lean ====
section
/-! DEFINITION. FRAME_RECEIVE: the receive MAC, the checks before the pipe, the stamp, the parse, the pipe's lookups and what
Infuser tracks (R36, R76 to R80, R97 to R107, R144, R145, R203, R241 to R245); and the writes of PUNT_METER and
SAMPLE_CFG. -/

namespace Sys2Proof.Machine

/-! ### The receive MAC (R76) -/

/-- The counter of the first case of R76 that a frame meets. An uncorrectable codeword counts as a code error (R71). -/
def macError (x : Port) (rx : RxFrame) : Option Nat :=
  if x.maxFrame < rx.bytes.length then some 3
  else if rx.codeError || rx.cwUncorrected != 0 then some 5
  else if !rx.fcsGood then some 4
  else none

/-- A MAC control frame is consumed: pause, PFC, or dropped; in hold-down it is discarded as every frame is (R79). -/
def State.macControl (s : State) (p : Nat) (bs : List Byte) : State :=
  let op := beAt bs 14 2
  if (s.port p).any (fun x => x.held) then (s.countRx p bs.length).countPort p 18 1
  else if op = 0x0001 then takePause p (BitVec.ofNat 16 (beAt bs 16 2)) bs.length s
  else if op = 0x0101 then
    takePfc p (BitVec.ofNat 8 (beAt bs 16 2)) ((List.range 8).map (fun c => BitVec.ofNat 16 (beAt bs (18 + 2 * c) 2))) bs.length s
  else (s.countRx p bs.length).countPort p 6 1

/-- Why a frame of good length, code and FCS goes no further: hold-down, a slice without its time, a mode other than RUN, a
link that is down, a header above the pipe's rate (R79, R241, R78, R36). -/
def rxRefused (s : State) (p : Nat) (x : Port) (hdrRate : Bool) : Option Nat :=
  if x.held then some 18
  else if !bitAt s.time.sliceOk (p / 64) then some 112
  else if s.mode != .run then some 17
  else if !x.link.up then some 40
  else if hdrRate then some 38
  else none

/-! ### Stamp and descriptor (R182, R242 to R245) -/

/-- The receive instant, rounded, of an SFD that was detected at `det` on a count of 2^-32 ns (R245). -/
def rxInstant (x : Port) (rx : RxFrame) (det : Nat) : Nat :=
  roundQuarter (det - (x.dRx.toNat + rx.p + rx.h) * tickUnit)

/-- TB at which the SFD was detected. -/
def sfdTb (s : State) (rx : RxFrame) : Nat := s.time.tb - rx.detAgo * tickUnit

/-- The estimated length, where the parse reached the outer L3 header. -/
def headerEstimate (bs : List Byte) (y : Parse) : Option Nat :=
  match y.l3 with
  | none => none
  | some o =>
    if y.flag flIpv4 then some (beAt bs (o + 2) 2 + o + 4)
    else if y.flag flIpv6 then some (beAt bs (o + 4) 2 + 40 + o + 4)
    else none

/-- A frame as it enters the lookups: its class is its port's default, its colour green. -/
def rxDescriptor (s : State) (x : Port) (rx : RxFrame) (slot : Bool) (y : Parse) (errored : Bool) : Frame :=
  let sl := rx.port.toNat / 64
  let det := sfdTb s rx
  let cls : ClassNo := BitVec.ofNat 3 (fld x.parse 11 9)
  { kind := .received, bytes := rx.bytes, inLen := rx.bytes.length, inPort := rx.port, attr := x.attr, cls := cls, queue := cls, colour := .green
    version := (s.slotOf slot).number, flowId := 0, stamp := timeOf (rxInstant x rx (s.sliceDevAt sl det))
    stampTb := rxInstant x rx (s.sliceTbAt sl det), stampQual := stampQual s sl det (adapting s rx.port.toNat x), outcome := BitVec.ofNat 4 (outcomeCode y.outcome)
    ptpOff := y.ptp, l3Off := y.l3, estimate := (headerEstimate rx.bytes y).getD x.maxFrame
    headerLength := (headerEstimate rx.bytes y).isSome, started := rx.started, cutThrough := false, errored := errored, account := .none, cells := 0
    sent := 0, vlan := none, group := none, pend := [], flood := false, voqCells := 0, occupancy := 0, spilled := false, spillAt := []
    gateWaited := false }

/-! ### The pipe's lookups -/

/-- The counter of a parse outcome; OK has none. -/
def State.countOutcome (s : State) (p : Nat) (o : Outcome) : State :=
  if outcomeCode o = 0 then s else s.countPort p (47 + outcomeCode o) 1

/-- The rule lookup of a frame: the frame under its rule, and whether a rule applied (R102 to R104). A key that needs an invalid
field is not looked up, and the frame has a rule miss (R98). -/
def State.ruleLook (s : State) (c : LookCtx) (x : Port) (slot : Bool) (f : Frame) (y : Parse) : State × Frame × Bool :=
  let prof := Map.val (s.slotOf slot).profiles (fld x.parse 15 12) []
  match if keyValid prof y then ruleMatch s c.sl slot (ruleKey prof y) else none with
  | none => (s.countPort f.port 53 1, f, false)
  | some (k, e) =>
    if [0x18, 0x19, 0x1A].any (fun t => upsetAt c.upset t (k % 16384)) then ((s.parityTrap c).countPort f.port 53 1, f, false)
    else (s.countRule k, f.underRule e.action, true)

/-- A peer-to-peer clock's port forwards neither Pdelay_Req nor Pdelay_Resp (R251). -/
def pdelayDrop (x : Port) (f : Frame) : Bool :=
  match f.ptpOff with
  | none => false
  | some o => bitAt x.ptpCfg 31 && bitAt x.ptpCfg 30 && inRange (beAt f.bytes o 1 % 16) 2 3

/-- What the parse, a PTP trap and the rules decide before the tables. -/
def earlyFate (x : Port) (f : Frame) (ruled : Bool) : Option Fate :=
  if ptpTraps x f then some .trap
  else if pdelayDrop x f then some .drop
  else if !ruled then some (.miss 2)
  else none

/-- The lookups of a parsed frame. A stage routine that a trap abandons sends the frame to the miss path from that stage;
which of the rule lookup and R121's steps stood before it is a free value. -/
def State.lookups (s : State) (c : LookCtx) (x : Port) (slot : Bool) (f : Frame) (y : Parse) : State × Frame × Fate :=
  match abandonedAt c.upset with
  | some (store, cause, mpc) =>
    let r := if s.free 1 = 1 then s.drawn.ruleLook c x slot f y else (s.drawn, f, false)
    let s1 := r.1.drawn.before c f.port y (earlyFate x r.2.1 true) (r.1.free 2).toNat
    ((s1.abandon c.sl c.pipe store cause mpc).countPort f.port 54 1, r.2.1, if pdelayDrop x f then .drop else .miss 4)
  | none =>
    let r := s.ruleLook c x slot f y
    let d := r.1.destination c f.port y (earlyFate x r.2.1 r.2.2)
    (d.1, r.2.1, d.2)

/-! ### Tracking (R144, R145) -/

/-- L4 fields of a header: 0 where they are invalid. -/
def l4Num (y : Parse) (off len : Nat) : Nat := if y.flag flL4 then y.num off len else 0

/-- h of R123. -/
def hashOfHeader (y : Parse) : BitVec 64 :=
  Config.memberHash (BitVec.ofNat 128 (y.num 22 16)) (BitVec.ofNat 128 (y.num 38 16)) (BitVec.ofNat 8 (y.byte 54))
    (BitVec.ofNat 16 (l4Num y 58 2)) (BitVec.ofNat 16 (l4Num y 60 2))

/-- How Infuser's rules see a frame with a unicast destination. -/
inductive Track where
  | no
  | noProfile
  | fragForward
  | fragDrop
  | yes
deriving DecidableEq, Repr

def trackOf (s : State) (x : Port) (f : Frame) (y : Parse) : Track :=
  if !bitAt s.tables.flowCfg 63 || !bitAt x.flow (24 + f.cls.toNat) || !(y.flag flIpv4 || y.flag flIpv6) ||
      !hbmThere s (f.port / 256) then .no
  else
    let p := profileAt s (fld x.flow 23 18)
    if !pfValid p then .noProfile
    else if y.flag flFrag then (if bitAt p 504 then .fragDrop else .fragForward)
    else .yes

/-- A group's member is chosen where Infuser does not choose it (R123). -/
def State.chooseMember (s : State) (c : LookCtx) (h : BitVec 64) (d : Dest) : State × Fate :=
  match d with
  | .group g => s.viaNexthop c (nhPick s g.toNat h)
  | d => (s, .unicast d)

/-- The header that a tracked frame sends to Infuser. -/
def flowHeader (s : State) (f : Frame) (y : Parse) (d : Dest) (slot : Bool) : FlowHdr :=
  { frame := f, orig := f.bytes, via := none, dest := d, slot := slot, v6 := y.flag flIpv6, proto := BitVec.ofNat 8 (y.byte 54)
    scope := BitVec.ofNat 12 (vlanOf s f.port y), srcAddr := BitVec.ofNat 128 (y.num 22 16)
    dstAddr := BitVec.ofNat 128 (y.num 38 16), srcPort := BitVec.ofNat 16 (l4Num y 58 2)
    dstPort := BitVec.ofNat 16 (l4Num y 60 2), tcpFlags := BitVec.ofNat 8 (l4Num y 62 1), l4Off := y.l4, h := hashOfHeader y, upset := .none
    ctx := 0 }

/-- A tracked header reaches its home partition's queue of 1,024; beyond it the frame is dropped (R152). -/
def State.toInfuser (s : State) (h : FlowHdr) (orig : List Byte) : State :=
  let p := homePart s (flowHashOf s h.key)
  let s1 := s.countPort h.port 80 1
  if 1024 ≤ (s1.part p).input.length then (s1.countPort h.port 84 1).endOfPipe h.frame orig .drop
  else (s1.modPart p (fun x => { x with input := x.input ++ [{ h with orig := orig }] })).modVers (fun v => { v with
    inFlight := Map.upd 0 v.inFlight (2 * h.frame.slice + h.slot.toNat) (· + 1) })

/-! ### FRAME_RECEIVE -/

/-- The end of an untracked frame. One found errored whose copy has not started is dropped, with no effect of the pipe
(assumption 51); `before` is the state in front of the pipe. -/
def State.finishRx (s before : State) (rx : RxFrame) (f : Frame) (fate : Fate) : State :=
  let cut := s.cutsThrough f fate
  if f.errored && !cut then before else s.endOfPipe { f with cutThrough := cut } rx.bytes fate

/-- A frame that policing let through, or that is not policed: tracked, or at the end of its pipe. -/
def State.afterPolicer (s before : State) (rx : RxFrame) (f : Frame) (y : Parse) (d : Dest) (slot : Bool) (t : Track) :
    State :=
  match t with
  | .no => s.finishRx before rx f (.unicast d)
  | .fragForward => (s.countPort f.port 81 1).finishRx before rx f (.unicast d)
  | .fragDrop => if f.errored then before else (s.countPort f.port 82 1).endOfPipe f rx.bytes .drop
  | .noProfile => if f.errored then before else (s.countPort f.port 83 1).endOfPipe f rx.bytes .drop
  | .yes => if f.errored && !f.started then before else s.toInfuser (flowHeader s f y d slot) rx.bytes

/-- A frame with its fate meets its policer, then Infuser's rules (Table 8.1). -/
def State.afterLookups (s before : State) (c : LookCtx) (x : Port) (rx : RxFrame) (f : Frame) (y : Parse) (slot : Bool)
    (fate : Fate) : State :=
  match fate with
  | .unicast d0 =>
    let t := trackOf s x f y
    let m := if t == .yes then (s, Fate.unicast d0) else s.chooseMember c (hashOfHeader y) d0
    match m.2 with
    | .unicast d =>
      match m.1.police c f with
      | (s1, .on g) => s1.afterPolicer before rx g y d slot t
      | (s1, .drop) => s1.finishRx before rx f .drop
      | (s1, .miss) => s1.finishRx before rx f (.miss 3)
    | other => m.1.finishRx before rx f other
  | .multi g v =>
    match s.police c f with
    | (s1, .on h) => s1.finishRx before rx h (.multi g v)
    | (s1, .drop) => s1.finishRx before rx f .drop
    | (s1, .miss) => s1.finishRx before rx f (.miss 3)
  | other => s.finishRx before rx f other

/-- A frame enters its pipe. -/
def State.runPipe (s : State) (x : Port) (rx : RxFrame) (errored : Bool) : State :=
  let p := rx.port.toNat
  let slot := admitSlot s (p / 64)
  let c : LookCtx := { sl := p / 64, pipe := rx.pipe.toNat, upset := rx.upset }
  match abandonedAt rx.upset with
  | some (0, cause, mpc) =>
    let y := abandoned p
    let s1 := ((s.abandon c.sl c.pipe 0 cause mpc).countOutcome p y.outcome).countPort p 54 1
    s1.finishRx s rx (rxDescriptor s x rx slot y errored) (.miss 4)
  | _ =>
    let y := parseFrame (s.slotOf slot).nodes p rx.bytes
    let f := rxDescriptor s x rx slot y errored
    let s1 := s.countOutcome p y.outcome
    if y.outcome.failed then s1.finishRx s rx f (.miss 1)
    else
      let r := s1.lookups c x slot f y
      r.1.afterLookups s c x rx r.2.1 y slot r.2.2

/-- FRAME_RECEIVE: a frame whose last byte has arrived. An oversize frame is received up to byte MAX_FRAME + 1. -/
def receive (rx : RxFrame) (s : State) : State :=
  let p := rx.port.toNat
  match s.port p with
  | none => s
  | some x =>
    if !macUp s p then s
    else
      let s0 := (s.countPort p 32 rx.cwCorrected).countPort p 33 rx.cwUncorrected
      if rx.bytes.length < 64 then s0.countPort p 2 1
      else
        let control := beAt rx.bytes 12 2 == 0x8808
        match macError x rx with
        | some slot =>
          let s1 := s0.countPort p slot 1
          if !rx.started || control || (rxRefused s1 p x rx.hdrRate).isSome then s1
          else s1.runPipe x { rx with bytes := rx.bytes.take (x.maxFrame + 1) } true
        | none =>
          if control then s0.macControl p rx.bytes
          else
            let s1 := s0.countRx p rx.bytes.length
            match rxRefused s1 p x rx.hdrRate with
            | some slot => s1.countPort p slot 1
            | none => s1.runPipe x rx false

def execFrameReceive (rx : RxFrame) (s : State) : Host.Outcome State Fault Refusal := .next (receive rx s)

/-! ### PUNT_METER and SAMPLE_CFG (R107, R108, R199) -/

/-- Offsets of the two registers in a port's block (Table 11.4). -/
def puntOffset : Nat := 0x18
def sampleOffset : Nat := 0x28

/-- A write of a 64-bit port register: discarded where the host is away or the slice absent; REG_REJECT where the register
takes no write, its value is refused, or no port holds the index. -/
def State.portWrite (s : State) (p off : Nat) (v : BitVec 64) (bad : Port → Bool) (f : State → State) : State :=
  if !s.hostUp || !sliceThere s (p / 64) then s
  else
    match s.port p with
    | none => s.regReject (macSource p) (portBase p + off)
    | some x =>
      if !s.sliceWritable (p / 64) then s.regReject (macSource p) (portBase p + off)
      else if bad x then (s.latchLow (portBase p + off) v).regReject (macSource p) (portBase p + off)
      else f (s.latchLow (portBase p + off) v)

/-- PUNT_METER_WRITE: the bucket is set to BURST. -/
def writePunt (p : Nat) (v : BitVec 64) (s : State) : State :=
  s.portWrite p puntOffset v (fun _ => fld v 31 16 == 0) (fun s => s.modPort p (fun x => { x with
    punt := v &&& 0x00FFFFFFFFFF0000, puntTok := 1000000000 * fld v 31 16, puntNs := s.tbNs }))

def execPuntMeterWrite (port : PortNo) (value : BitVec 64) (s : State) : Host.Outcome State Fault Refusal :=
  .next (writePunt port.toNat value s)

/-- A countdown drawn from 1 to N. -/
def drawCount (s : State) (nm1 : Nat) : Nat := (s.free 64).toNat % (nm1 + 1) + 1

/-- SAMPLE_CFG_WRITE: both countdowns are drawn. -/
def writeSample (p : Nat) (v : BitVec 64) (s : State) : State :=
  s.portWrite p sampleOffset v (fun _ => false) (fun s =>
    let s1 := s.drawn
    State.drawn (s1.modPort p (fun x => { x with
      sample := v &&& 0xFEFFFFFFFEFFFFFF, rxCount := drawCount s (fld v 55 32), txCount := drawCount s1 (fld v 23 0) })))

def execSampleCfgWrite (port : PortNo) (value : BitVec 64) (s : State) : Host.Outcome State Fault Refusal :=
  .next (writeSample port.toNat value s)

end Sys2Proof.Machine
end

