-- ==== Sys2Proof/Machine/FlowCmds.lean ====
section
/-! DEFINITION. The flow commands (R162, R171 to R173, R327, Tables 6.11 and 12.7). -/

namespace Sys2Proof.Machine

/-! ### Keys of commands -/

/-- A FLOW KEY of Table 12.5, in canonical order; and whether endpoint A is LO. A reserved KEY_TYPE, or an IPv4 address with
bits above 31 set, is no key. -/
def flowKeyOf (k : BitVec 310) : Option (FKey × Bool) :=
  let t := fld k 1 0
  let a := fld k 149 22
  let b := fld k 293 166
  if t = 0 ∨ t = 3 ∨ (t = 1 ∧ (2 ^ 32 ≤ a ∨ 2 ^ 32 ≤ b)) then none
  else some (mkKey (t == 2) (fld k 21 14) (fld k 13 2) a (fld k 165 150) b (fld k 309 294))

/-- Infuser and HBM domains of a quadrant. -/
def flowDoms (q : Nat) : List Nat := [44 + q, 40 + q]

/-- The domains of a key's home quadrant. -/
def keyDoms (s : State) (k : Option (FKey × Bool)) : List Nat :=
  match k with
  | some e => flowDoms (homeQuad s (flowHashOf s e.1))
  | none => []

/-- Infuser is absent on the member (R143). -/
def noInfuser (s : State) : Bool := s.fuses.member == 3

/-- Headers are parked at a record or at its twin, or under their keys (R173). -/
def parkedAt (s : State) (loc : Nat) (x : FlowSlot) : Bool :=
  let at_ := fun (l : Nat) (k : FKey) => s.allFetches.any (fun f =>
    (f.loc == l && !f.install && !f.parked.isEmpty) || f.parked.any (fun h => h.key == k))
  at_ loc (recKey x.record) || (match peerOf s loc x with
    | some m => (flowAt s m).any (fun y => at_ m (recKey y.record))
    | none => false)

/-! ### FLOW_PROFILE_SET and FLOW_PROFILE_GET (R162) -/

/-- A profile that FLOW_PROFILE_SET refuses. -/
def badFlowProfile (s : State) (p : BitVec 512) : Bool :=
  bitAt p 500 || fld p 420 416 != 0 || fld p 255 0 != 0 ||
  (pfNat p && decide (2 ≤ fld p 431 430)) ||
  (pfNat p && fld p 431 430 == 0 && (fld p 415 400 == 0 || decide (fld p 399 384 < fld p 415 400) ||
    decide (fld p 399 384 + 1 - fld p 415 400 < (quadsThere s).length))) ||
  ((pfNat p || pfFilter p) && !bitAt p 506)

/-- Some record holds a profile. -/
def profileHeld (s : State) (n : Nat) : Bool := s.tables.flows.any (fun e => recProfile e.2.record == n)

def profileSet (n : Nat) (data : HostData) (s : State) : Res :=
  match data with
  | none => .fail .dmaError s
  | some b =>
    let p : BitVec 512 := BitVec.ofNat 512 (leNat (b.take 64))
    if fld p 511 507 != fld (profileAt s n) 511 507 && profileHeld s n then .fail .inUse s
    else .ok 0 (s.modTables (fun t => { t with profiles := Map.put 0 t.profiles n p }))

def execFlowProfileSet (sub : Sub) (buf : Addr) (profile : BitVec 6) (data : HostData) (s : State) :
    Host.Outcome State Fault Refusal :=
  .next (runCommand Cat.flowProfileSet sub (pack 384 [(63, 0, buf.toNat), (69, 64, profile.toNat)])
    { bad := fun s => !noInfuser s && (misaligned buf || (match data with
        | some b => badFlowProfile s (BitVec.ofNat 512 (leNat (b.take 64)))
        | none => false))
      absent := noInfuser
      doms := fun s => (quadsThere s).map (44 + ·)
      act := profileSet profile.toNat data } s)

def execFlowProfileGet (sub : Sub) (buf : Addr) (profile : BitVec 6) (s : State) : Host.Outcome State Fault Refusal :=
  .next (runCommand Cat.flowProfileGet sub (pack 384 [(63, 0, buf.toNat), (69, 64, profile.toNat)])
    { bad := fun s => !noInfuser s && misaligned buf
      absent := noInfuser
      doms := fun _ => [44]
      act := fun s => .ok 0 (s.writeBuf buf (leBytes 64 (profileAt s profile.toNat).toNat)) } s)

/-! ### FLOW_INSTALL (R171, R327) -/

/-- The key of a FLOW_INSTALL block in canonical order, and whether the originator is LO. -/
def blockKey (r : BitVec 1024) : FKey × Bool :=
  let m := mkKey (fld r 1013 1012 == 2) (fld r 1011 1004) (fld r 1003 992) (fld r 991 864) (fld r 735 720) (fld r 863 736)
    (fld r 719 704)
  (m.1, m.2 == bitAt r 1021)

/-- A block that FLOW_INSTALL refuses: a field that must be 0, a reserved encoding, or an invalid profile. -/
def badBlock (s : State) (r : BitVec 1024) : Bool :=
  let t := fld r 1013 1012
  let p := profileAt s (recProfile r)
  bitAt r 1023 || bitAt r 1020 || fld r 703 448 != 0 || t == 0 || t == 3 ||
  (t == 1 && (decide (2 ^ 32 ≤ fld r 991 864) || decide (2 ^ 32 ≤ fld r 863 736))) ||
  !pfValid p || fld r 446 444 != 0 || fld r 409 384 != 0 || fld r 45 26 != 0 || decide (8 < fld r 415 412) ||
  (pfFilter p && fld r 415 412 == 0)

/-- The functions' state that a record keeps: that of the functions its profile enables; NAT's fields are the device's
where it translates. -/
def blockState (p : BitVec 512) (r : BitVec 1024) : List (Nat × Nat × Nat) :=
  (if pfLb p then [(447, 447, fld r 447 447), (443, 416, fld r 443 416)] else []) ++
  (if pfFilter p then [(415, 410, fld r 415 410)] else []) ++
  (if pfTelem p then [(383, 192, fld r 383 192)] else [])

/-- The record that a command installs. -/
def blockRecord (s : State) (r : BitVec 1024) (id : Nat) : BitVec 1024 :=
  let k := blockKey r
  pack 1024 (k.1.fields ++
    [(1023, 1023, 1), (1022, 1022, (bitAt r 1022).toNat), (1021, 1021, k.2.toNat), (1019, 1014, recProfile r), (687, 624, id),
     (623, 560, s.tbNs), (559, 496, s.tbNs)] ++ blockState (profileAt s (recProfile r)) r)

/-- The translation that a block gives: the flow is of its pool's family. -/
def blockXlate (s : State) (r : BitVec 1024) : Option Xlate :=
  let p := profileAt s (recProfile r)
  let k := blockKey r
  if pfNat p && natFamily p k.1 then some { addr := fld r 191 64, port := fld r 63 48, hiSide := xHi p k.2 } else none

/-- The SNAT port that a block names. -/
def blockSnat (s : State) (r : BitVec 1024) : Option (Nat × BitVec 128 × BitVec 16) :=
  match blockXlate s r with
  | none => none
  | some x => if pfDnat (profileAt s (recProfile r)) then none
      else some (recProfile r, BitVec.ofNat 128 x.addr, BitVec.ofNat 16 x.port)

/-- The place of a replaced flow's twin, where its key stays the same. -/
def keptTwin (s : State) (r : BitVec 1024) (old : Nat × FlowSlot) : Option Nat :=
  match blockXlate s r with
  | none => none
  | some x => (peerOf s old.1 old.2).filter (fun m => (Map.find s.tables.flows m).any (fun y =>
      recKey y.record == (twinKey (blockKey r).1 x).1))

/-- The state without the record that an install replaces. -/
def State.vacated (s : State) (old : Option (Nat × FlowSlot)) : State :=
  match old with
  | some e => s.dropFlow e.1
  | none => s

/-- The record in its slot with its twin. A replaced record keeps its place and its flow ID (R171, R172). -/
def State.installBlock (s : State) (r : BitVec 1024) (old : Option (Nat × FlowSlot)) : Placed :=
  let k := blockKey r
  let fh := flowHashOf s k.1
  let s0 := s.vacated old
  let spot := match old with
    | some e => Spot.free e.1
    | none => spotFor s0 fh (bitAt (profileAt s (recProfile r)) 505) []
  if noWay s0 spot none then .wait spot.loc
  else match s0.takeSpot spot with
    | none => .full
    | some (s1, loc) =>
      let i : State × Nat := match old with
        | some e => (s1, recFlowId e.2.record)
        | none => s1.drawFlowId (homeQuad s fh)
      let s2 := i.1.putFlow loc (fprint fh) (blockRecord s r i.2)
      match blockXlate s r with
      | none => .done s2 loc
      | some x =>
        match s2.putTwin loc k.1 x k.2 (old.bind (keptTwin s r)) with
        | .done s3 l => .done (if (blockSnat s r).isSome then s3.takePort (recProfile r) x else s3) l
        | other => other

/-- The flow ID of the record at a location. -/
def flowIdAt (s : State) (loc : Nat) : Nat := ((Map.find s.tables.flows loc).map (fun x => recFlowId x.record)).getD 0

/-- FLOW_INSTALL. It waits for the headers parked at a record that it replaces (R173), and for a way of its set, which its `first` try
counts (R151). -/
def flowInstallAct (replace first : Bool) (data : HostData) (s : State) : Res :=
  match data with
  | none => .fail .dmaError s
  | some b =>
    let r : BitVec 1024 := BitVec.ofNat 1024 (leNat (b.take 128))
    let old := flowFind s (blockKey r).1
    if old.isSome && !replace then .fail .inUse s
    else if old.any (fun e => parkedAt s e.1 e.2) then .wait s
    else if (blockSnat s r).any (fun k => (s.vacated old).tables.snat.contains k) then .fail .inUse s
    else match s.installBlock r old with
      | .full => .fail .noRoom s
      | .wait loc => .wait (if first then s.countPart (locPart loc) 227 else s)
      | .done t loc =>
        let id := flowIdAt t loc
        .ok (pack 384 [(63, 0, id), (89, 64, loc)])
          (if old.isSome then t else (t.countPart (locPart loc) 230).postFlow 1 (recProfile r) id loc (0, 0)).agents

/-- The domains of a block's home quadrant and of its twin's. -/
def blockDoms (data : HostData) (s : State) : List Nat :=
  match data with
  | none => []
  | some b =>
    let r : BitVec 1024 := BitVec.ofNat 1024 (leNat (b.take 128))
    let k := (blockKey r).1
    flowDoms (homeQuad s (flowHashOf s k)) ++ (match blockXlate s r with
      | some x => flowDoms (homeQuad s (flowHashOf s (twinKey k x).1))
      | none => [])

def execFlowInstall (sub : Sub) (buf : Addr) (replace : BitVec 1) (data : HostData) (s : State) :
    Host.Outcome State Fault Refusal :=
  .next (runCommand Cat.flowInstall sub (pack 384 [(63, 0, buf.toNat), (64, 64, replace.toNat)])
    { bad := fun s => !noInfuser s && (misaligned buf || (match data with
        | some b => badBlock s (BitVec.ofNat 1024 (leNat (b.take 128)))
        | none => false))
      absent := noInfuser
      doms := blockDoms data
      act := flowInstallAct (replace == 1) true data
      again := orBadMode (flowInstallAct (replace == 1) false data) } s)

/-! ### FLOW_DELETE, FLOW_GET and FLOW_STATUS_GET -/

def flowDeleteAct (key : BitVec 310) (s : State) : Res :=
  match flowKeyOf key with
  | none => .fail .badParam s
  | some k => match flowFind s k.1 with
    | none => .fail .notFound s
    | some e => if parkedAt s e.1 e.2 then .wait s else .ok 0 (s.dropFlow e.1).agents

def execFlowDelete (sub : Sub) (key : BitVec 310) (s : State) : Host.Outcome State Fault Refusal :=
  .next (runCommand Cat.flowDelete sub (key.setWidth 384)
    { bad := fun s => !noInfuser s && (flowKeyOf key).isNone
      absent := noInfuser
      doms := fun s => keyDoms s (flowKeyOf key)
      act := flowDeleteAct key
      again := orBadMode (flowDeleteAct key) } s)

def flowGetAct (buf : Addr) (id : BitVec 64) (loc : Nat) (s : State) : Res :=
  match flowAt s loc with
  | none => .fail .notFound s
  | some x => if recFlowId x.record == id.toNat then .ok 0 (s.writeBuf buf (leBytes 128 x.record.toNat)) else .fail .notFound s

def execFlowGet (sub : Sub) (buf : Addr) (flowId : BitVec 64) (loc : BitVec 26) (s : State) :
    Host.Outcome State Fault Refusal :=
  .next (runCommand Cat.flowGet sub (pack 384 [(63, 0, buf.toNat), (127, 64, flowId.toNat), (153, 128, loc.toNat)])
    { bad := fun s => !noInfuser s && (misaligned buf || decide (33554432 ≤ loc.toNat))
      absent := fun s => !hbmThere s (locQuad loc.toNat)
      doms := fun _ => flowDoms (locQuad loc.toNat)
      act := flowGetAct buf flowId loc.toNat } s)

/-- Records of a quadrant that a property holds of. -/
def countFlows (s : State) (q : Nat) (p : BitVec 1024 → Bool) : Nat :=
  s.tables.flows.countP (fun e => locQuad e.1 == q && e.2.reachable && p e.2.record)

/-- FLOW_STATUS_GET: the peak starts afresh from what is in use (R327). -/
def flowStatus (q : Nat) (s : State) : Res :=
  let used := pendUsed s q
  .ok (pack 384 [(31, 0, countFlows s q (fun _ => true)), (63, 32, countFlows s q (fun r => bitAt r 1022)),
      (95, 64, countFlows s q recTwin), (112, 96, used), (144, 128, (s.quad q).pendPeak), (255, 192, (s.quad q).flowSeq.toNat)])
    (s.modQuad q (fun x => { x with pendPeak := used }))

def execFlowStatusGet (sub : Sub) (quad : QuadNo) (s : State) : Host.Outcome State Fault Refusal :=
  .next (runCommand Cat.flowStatusGet sub (pack 384 [(1, 0, quad.toNat)])
    { absent := fun s => !hbmThere s quad.toNat
      doms := fun _ => [44 + quad.toNat]
      act := flowStatus quad.toNat } s)

end Sys2Proof.Machine
end

