-- ==== Sys2Proof/Machine/TableCmds.lean ====
section
/-! DEFINITION. SEARCH, NEXT, FLUSH_BY_PORT and TABLE_INFO on every table they reach (R135, R136, R172, R326, Tables 12.4 and
12.5). -/

namespace Sys2Proof.Machine

/-- The quadrant that COPY names: 0xF is the lowest present. -/
def copyQuad (s : State) (copy : BitVec 4) : Nat := if copy = 0xF then (quadsThere s).headD 0 else copy.toNat

/-! ### SEARCH -/

/-- A KEY that SEARCH refuses, and a table that it does not reach. -/
def badSearch (tab : Nat) (key : BitVec 310) : Bool :=
  match tab with
  | 1 => (hostKeyOf key).isNone
  | 2 => !lpmKeyOk false key
  | 3 => !lpmKeyOk true key
  | 4 => (flowKeyOf key).isNone
  | _ => true

/-- An entry of HOST with its tail, as a copy holds it. -/
def hostWhole (s : State) (q loc : Nat) (x : HostSlot) : Nat :=
  (hostView x q).toNat + (if hType4 x.entry = 3 then
    (match Map.find s.tables.host (loc + 1) with
      | some t => (hostView t q).toNat * 2 ^ 128
      | none => 0) else 0)

def searchAct (tab : Nat) (key : BitVec 310) (q : Nat) (buf : Addr) (s : State) : Res :=
  match tab with
  | 1 => match (hostKeyOf key).bind (hostFind s.tables.host) with
    | some e => .ok (pack 384 [(255, 0, hostWhole s q e.1 e.2), (287, 256, e.1)]) s
    | none => .fail .notFound s
  | 4 => match (flowKeyOf key).bind (fun k => flowFind s k.1) with
    | some e => .ok (pack 384 [(287, 256, e.1)]) (s.writeBuf buf (leBytes 128 e.2.record.toNat))
    | none => .fail .notFound s
  | t =>
    let k := lpmKey (fld key 135 8) (fld key 7 0)
    match Map.find (lpmTable s (t == 3)) k with
    | some r => .ok (pack 384 [(1, 0, fld r.result 17 16), (17, 2, fld r.result 15 0), (287, 256, r.loc.toNat)]) s
    | none => .fail .notFound s

def execSearch (sub : Sub) (key : BitVec 310) (copy : BitVec 4) (tabId : BitVec 8) (bufBlk : BitVec 58) (s : State) :
    Host.Outcome State Fault Refusal :=
  .next (runCommand Cat.search sub
    (pack 384 [(309, 0, key.toNat), (317, 314, copy.toNat), (325, 318, tabId.toNat), (383, 326, bufBlk.toNat)])
    { bad := fun _ => badSearch tabId.toNat key
      absent := fun s => if tabId = 4 then noInfuser s else !quadThere s (copyQuad s copy)
      doms := fun s => if tabId = 4 then keyDoms s (flowKeyOf key) else [36 + copyQuad s copy]
      act := fun s => searchAct tabId.toNat key (copyQuad s copy) (BitVec.ofNat 64 (64 * bufBlk.toNat)) s } s)

/-! ### NEXT -/

/-- The entries of a copy in location order: each location, and its bytes. -/
def tableBytes (s : State) (tab q : Nat) : List (Nat × List Byte) :=
  match tab with
  | 1 => (s.tables.host.filter (fun e => hType4 e.2.entry != 4)).map (fun e =>
      (e.1, leBytes (if hType4 e.2.entry = 3 then 32 else 16) (hostWhole s q e.1 e.2)))
  | 4 => (s.tables.flows.filter (fun e => locQuad e.1 == q && e.2.reachable)).map (fun e =>
      (e.1, leBytes 128 e.2.record.toNat))
  | t =>
    (lpmTable s (t == 3)).foldl (fun a e => Map.ins a e.2.loc.toNat
      (leBytes 32 (pack 256 [(7, 0, e.1 % 256), (135, 8, e.1 / 256), (137, 136, fld e.2.result 17 16),
        (153, 138, fld e.2.result 15 0)]).toNat)) []

/-- A cursor: its table, and the number under which the device holds the rest. -/
def cursorOf (tab n : Nat) : BitVec 64 := pack 64 [(63, 61, tab), (60, 0, n)]
def cursorTab (c : BitVec 64) : Nat := fld c 63 61
def cursorNo (c : BitVec 64) : Nat := fld c 60 0

def endCursor : BitVec 64 := 0xFFFFFFFFFFFFFFFF

/-- A cursor of another table, or none that the device has given. -/
def badCursor (s : State) (tab : Nat) (c : BitVec 64) : Bool :=
  c != 0 && (cursorTab c != tab || !inRange (cursorNo c) 1 (s.dev.nextCursor - 1))

/-- A cursor taken before a warm reset. -/
def oldCursor (s : State) (c : BitVec 64) : Bool := c != 0 && decide (cursorNo c < s.dev.cursorEpoch)

/-- Where an iteration stands: at its beginning for the cursor 0. -/
def cursorAt (s : State) (tab : Nat) (c : BitVec 64) : Cursor :=
  match (if c = 0 then none else Map.find s.tables.cursors (cursorNo c)) with
  | some x => x
  | none => { tab := tab, loc := 0, relocs := s.tables.relocs }

/-- A cursor handed out. -/
def State.giveCursor (s : State) (x : Cursor) : State :=
  let n := s.dev.nextCursor
  { s.modTables (fun t => { t with cursors := Map.ins t.cursors n x }) with dev := { s.dev with nextCursor := n + 1 } }

def nextAct (cursor : BitVec 64) (buf : Addr) (tab q count : Nat) (s : State) : Res :=
  if oldCursor s cursor then .fail .stale s
  else
    let c := cursorAt s tab cursor
    let rest := (tableBytes s tab q).filter (fun e => decide (c.loc ≤ e.1))
    let now := rest.take count
    let seen := tab == 1 && c.relocs != s.tables.relocs
    let s1 := if now.isEmpty then s else s.writeBuf buf (now.flatMap (·.2))
    match (rest.drop count).head? with
    | some e => .ok (pack 384 [(63, 0, (cursorOf tab s.dev.nextCursor).toNat), (70, 64, now.length), (71, 71, seen.toNat)])
        (s1.giveCursor { c with loc := e.1 })
    | none => .ok (pack 384 [(63, 0, endCursor.toNat), (70, 64, now.length), (71, 71, seen.toNat)]) s1

def execNext (sub : Sub) (cursor : BitVec 64) (buf : Addr) (tabId : BitVec 8) (copy : BitVec 4) (count : BitVec 7) (s : State) :
    Host.Outcome State Fault Refusal :=
  .next (runCommand Cat.next sub
    (pack 384 [(63, 0, cursor.toNat), (127, 64, buf.toNat), (135, 128, tabId.toNat), (139, 136, copy.toNat), (146, 140, count.toNat)])
    { bad := fun s => misaligned buf || !inRange count.toNat 1 64 || !inRange tabId.toNat 1 4 || badCursor s tabId.toNat cursor
      absent := fun s => if tabId = 4 then !hbmThere s (copyQuad s copy) else !quadThere s (copyQuad s copy)
      doms := fun s => if tabId = 4 then flowDoms (copyQuad s copy) else [36 + copyQuad s copy]
      act := fun s => nextAct cursor buf tabId.toNat (copyQuad s copy) count.toNat s } s)

/-! ### FLUSH_BY_PORT (R136, R172) -/

/-- Locations of the records that a flush on FLOW removes. -/
def flowsOfPort (s : State) (p : Nat) (withStatic : Bool) : List Nat :=
  (s.tables.flows.filter (fun e => e.2.reachable && !recTwin e.2.record && (withStatic || !bitAt e.2.record 1022) &&
    (fld e.2.record 495 486 == p || fld e.2.record 485 476 == p))).map (·.1)

def flushAct (tab p vlan : Nat) (withStatic : Bool) (s : State) : Res :=
  if tab = 1 then
    let r := s.flushHost p vlan withStatic
    .ok (BitVec.ofNat 384 r.2) r.1
  else
    let locs := flowsOfPort s p withStatic
    if locs.any (fun l => (Map.find s.tables.flows l).any (parkedAt s l)) then .wait s
    else .ok (BitVec.ofNat 384 locs.length) (foldNats locs State.dropFlow s).agents

def execFlushByPort (sub : Sub) (port : Handle) (vlan : BitVec 12) (includeStatic : BitVec 1) (tabId : BitVec 8) (s : State) :
    Host.Outcome State Fault Refusal :=
  let act := flushAct tabId.toNat (fld port 19 0) vlan.toNat (includeStatic == 1)
  .next (runCommand Cat.flushByPort sub
    (pack 384 [(31, 0, port.toNat), (43, 32, vlan.toNat), (44, 44, includeStatic.toNat), (55, 48, tabId.toNat)])
    { bad := fun _ => tabId != 1 && tabId != 4
      absent := fun s => tabId == 4 && noInfuser s
      doms := fun s => if tabId = 4 then (quadsThere s).flatMap flowDoms else (quadsThere s).map (36 + ·)
      act := act
      again := orBadMode act } s)

/-! ### TABLE_INFO -/

/-- Entries of Table 5.1; for a table with a copy of its own in each slice, those of one copy. -/
def capacityOf (t : Nat) : Nat :=
  match t with
  | 1 => 2097152 | 2 => 2097152 | 3 => 1048576 | 4 => 33554432 | t => tawEntries t

/-- Entries in use in a copy: valid ones, and for the ACL tables the entries that are visible. -/
def inUse (s : State) (t copy : Nat) : Nat :=
  match t with
  | 1 => hostCount s.tables.host
  | 2 => s.tables.lpm4.length
  | 3 => s.tables.lpm6.length
  | 4 => countFlows s copy (fun _ => true)
  | 0x10 => s.tables.portVlan.countP (fun e => e.1 / 64 == copy && bitAt e.2 31)
  | 0x11 => s.tables.vlan.countP (fun e => bitAt e.2 127)
  | 0x12 => s.tables.nexthop.countP (fun e => bitAt e.2 127)
  | 0x13 => s.tables.nhgroup.countP (fun e => fld e.2 485 480 != 0)
  | 0x14 => s.tables.mcgroup.countP (fun e => bitAt e.2 31)
  | 0x15 => s.tables.mcEgress.countP (fun e => e.1 / 65536 == copy)
  | 0x16 => s.tables.policer.countP (fun e => e.1 / 32768 == copy && bitAt e.2.entry 255)
  | 0x17 => s.tables.shaper.countP (fun e => (shaperSlices e.1).headD 0 == copy && bitAt e.2.entry 127)
  | _ => s.tables.acl.countP (fun e => e.1 / 16384 == copy && (e.2.vis0 || e.2.vis1))

/-- A table of Table 5.1, and a copy of it that the member has. -/
def knownTable (t : Nat) : Bool := inRange t 1 4 || inRange t 0x10 0x1A
def copyThere (s : State) (t copy : Nat) : Bool :=
  if t = 4 then hbmThere s copy else if perQuad t then quadThere s copy else sliceThere s copy

def execTableInfo (sub : Sub) (tabId : BitVec 8) (copy : BitVec 4) (s : State) : Host.Outcome State Fault Refusal :=
  .next (runCommand Cat.tableInfo sub (pack 384 [(7, 0, tabId.toNat), (11, 8, copy.toNat)])
    { bad := fun _ => !knownTable tabId.toNat
      absent := fun s => !copyThere s tabId.toNat copy.toNat
      doms := fun _ => if tabId = 4 then flowDoms copy.toNat else if perQuad tabId.toNat then [36 + copy.toNat] else [4 + copy.toNat]
      act := fun s => .ok (pack 384 [(31, 0, inUse s tabId.toNat copy.toNat),
        (63, 32, if tabId = 1 then stashCount s.tables.host else 0), (95, 64, capacityOf tabId.toNat)]) s } s)

end Sys2Proof.Machine
end

