-- ==== Sys2Proof/Machine/Ports.lean ====
section
/-! DEFINITION. PORT_CREATE, PORT_DESTROY, PORT_STATUS_GET and PORT_ATTR_SET (R68, R69, R72, R73, R84 to R88, R180, R222). -/

namespace Sys2Proof.Machine

/-- Lanes that some port holds. -/
def lanesHeld (s : State) (p n : Nat) : Bool :=
  s.ports.any (fun e => decide (e.1 < p + n) && decide (p < e.1 + e.2.lanes))

/-- MIN of a new port: 16 cells a class where the slice's limit allows it (R180). -/
def minFor (s : State) (sl : Nat) : Nat :=
  if minTotal s sl + 128 + (s.slice sl).hdrmPool.toNat ≤ 49152 then 16 else 0

/-- A lane newly bound: OFF, with the settings it has kept; taps that training sets are at their mode's defaults, and a native
lane has none (R53 to R55). -/
def Lane.bind (mode : Nat) (x : Lane) : Lane :=
  let t := defaultTaps mode
  if mode = 1 then { x with txCtl := false, cPre := 0, cMain := 0, cPost := 0 }
  else if x.txCtl then x
  else { x with cPre := t.1, cMain := t.2.1, cPost := t.2.2 }

/-- Shapers of a port: its own, its classes' and those of the VOQs toward it, at their reset entries (R222). -/
def portShaper (p i : Nat) : Bool :=
  (decide (i < 131072) && voqPort i == p) || (inRange i 131072 139263 && (i - 131072) / 8 == p) || i == 139264 + p

/-- Counters of the VOQs toward a port (R331). -/
def State.clearVoqCounters (s : State) (p : Nat) : State :=
  foldNats (List.range 16) (fun a sl => foldNats classes (fun b c =>
    let v := voqIndex sl p c
    b.clearSlots (0x3000 + v / 64) (8 * (v % 64)) (8 * (v % 64) + 7)) a) s

/-- A new port on an index. Its counters, those of the VOQs toward it, and those of the multicast queues of its slice start at 0
(R202; assumption 82). -/
def State.createPort (s : State) (p typ : Nat) : State :=
  let sl := p / 64
  let x := { Port.create typ (minFor s sl) with puntNs := s.tbNs, trapNs := s.tbNs }
  let s1 := foldNats (lanesOf p x) (fun a l => a.modLane l (Lane.bind (laneModeOf typ))) (s.setPort p x)
  let s2 := (((s1.clearSlots (0x400 + p) 0 511).clearVoqCounters p).clearSlots (0x10 + sl) 256 279).modTables (fun t => { t with
    shaper := t.shaper.filter (fun e => !portShaper p e.1) })
  if minFor s sl = 0 then s2.raise (0x3000 + 0x100 * sl) 0x082 0 (s.portGenOf p).toNat p else s2

def portCreateAct (slice : Handle) (first typ : Nat) (s : State) : Res :=
  let p := 64 * fld slice 19 0 + first
  if lanesHeld s p (laneCount typ) then .fail .noRoom s
  else .ok (portHandle s p).toNat (s.createPort p typ)

def execPortCreate (sub : Sub) (slice : Handle) (firstLane : BitVec 6) (typ : BitVec 4) (s : State) :
    Host.Outcome State Fault Refusal :=
  .next (runCommand Cat.portCreate sub (pack 384 [(31, 0, slice.toNat), (37, 32, firstLane.toNat), (43, 40, typ.toNat)])
    { bad := fun _ => laneCount typ.toNat == 0 || firstLane.toNat % laneCount typ.toNat != 0
      doms := fun _ => [4 + fld slice 19 0]
      act := portCreateAct slice firstLane.toNat typ.toNat } s)

/-! ### PORT_DESTROY (R88) -/

/-- A lane no port holds: OFF, its retirement and counts cleared (R60, R63). -/
def Lane.unbind (x : Lane) : Lane :=
  { x with retired := false, corr := 0, serCount := 0, serStart := 0, trainTimeouts := 0, skewUi := 0, retained := false }

/-- A port is gone: what R88 lists, and its handle's generation (R87). -/
def State.destroyPort (s : State) (p : Nat) : State :=
  match s.port p with
  | none => s
  | some x =>
    let s1 := (foldNats (lanesOf p x) (fun a l => ((a.stopTest p l).moveLane l .off).modLane l Lane.unbind) s)
    let s2 := ((((s1.endTx p).discardToward p 35 classes).discardEq p 35).voidToward p).flushHost p 0xFFF false
    let s3 := (s2.1.clearPage (0x400 + p)).dropPages (fun n => (List.range 16).any (fun sl => n == 0x3000 + 128 * sl + p / 8))
    State.agents { s3 with ports := Map.del s3.ports p, portGen := Map.ins s3.portGen p (nextGen (s.portGenOf p)) }

def portDestroyAct (h : Handle) (s : State) : Res :=
  match s.port (hPort h) with
  | none => .fail .notFound s
  | some x =>
    if x.enabled then .fail .busy s
    else if namedByOthers s h then .wait s
    else .ok 0 (s.destroyPort (hPort h))

def execPortDestroy (sub : Sub) (port : Handle) (s : State) : Host.Outcome State Fault Refusal :=
  .next (runCommand Cat.portDestroy sub (pack 384 [(31, 0, port.toNat)])
    { doms := fun _ => [4 + hPort port / 64]
      act := portDestroyAct port
      again := orBadMode (portDestroyAct port) } s)

/-! ### PORT_STATUS_GET (R85) -/

/-- Code of RX_FAULT. -/
def rsCode : RsFault → Nat
  | .none => 0 | .localFault => 1 | .remoteFault => 2

/-- Classes of a port that a property holds of, as bits. -/
def classBits (f : Nat → Bool) : Nat := classes.foldl (fun a c => if f c then a + 2 ^ c else a) 0

/-- Seconds of hold-down left, rounded up. -/
def holdRemain (s : State) (x : Port) : Nat :=
  match x.link.holdUntil with
  | some t => (t - s.tbNs + 999999999) / 1000000000
  | none => 0

/-- The result of Table 3.7. -/
def portStatus (s : State) (p : Nat) (x : Port) : BitVec 384 :=
  pack 384 [(63, 48, holdRemain s x), (47, 40, classBits (fun c => (x.pauseOf c).storm)),
    (39, 32, classBits (fun i => decide (i < x.lanes) && (s.lane (p + i)).state == .up)), (31, 30, rsCode x.link.rs),
    (29, 29, x.held.toNat), (28, 28, x.link.up.toNat), (27, 24, x.type), (23, 22, x.fec),
    (21, 14, classBits (x.paused s.tbNs))]

def portStatusAct (p : Nat) (s : State) : Res :=
  match s.port p with
  | none => .fail .notFound s
  | some x => .ok (portStatus s p x) s

def execPortStatusGet (sub : Sub) (port : Handle) (s : State) : Host.Outcome State Fault Refusal :=
  .next (runCommand Cat.portStatusGet sub (pack 384 [(31, 0, port.toNat)])
    { doms := fun _ => [4 + hPort port / 64], act := portStatusAct (hPort port) } s)

/-! ### PORT_ATTR_SET (R84) -/

/-- DEFAULT_ACTION reserved, or REDIRECT to an index that holds no port. -/
def badAttr (s : State) (a : BitVec 32) : Bool :=
  decide (2 ≤ fld a 29 28) || (fld a 29 28 == 1 && (s.port (fld a 9 0)).isNone)

def attrSetAct (p : Nat) (a : BitVec 32) (s : State) : Res :=
  let others := s.ports.countP (fun e => e.1 != p && e.2.priv)
  if bitAt a 31 && decide (64 ≤ others) then .fail .noRoom s
  else .ok 0 (s.modPort p (fun x => { x with attr := a }))

def execPortAttrSet (sub : Sub) (port : Handle) (attr : BitVec 32) (s : State) : Host.Outcome State Fault Refusal :=
  .next (runCommand Cat.portAttrSet sub (pack 384 [(31, 0, port.toNat), (63, 32, attr.toNat)])
    { bad := fun s => badAttr s attr
      doms := fun _ => [4 + hPort port / 64]
      act := attrSetAct (hPort port) attr } s)

end Sys2Proof.Machine
end

