-- ==== Sys2Proof/Machine/Fabric.lean ====
section
/-! DEFINITION. Request and grant, the fabric, multicast passes and splits, and spill read-back (R178, R184 to R198, R211, R212,
R214): GRANT, FABRIC_CELL, FABRIC_SEQ_TIMEOUT, PLANE_FAIL, MC_PASS, MC_SPLIT, SPILL_READBACK, the rows of Caddy and of the
spill region, and the buffer commands. -/

namespace Sys2Proof.Machine

/-! ### Shapers in use (R211, R212) -/

/-- A shaper lets a frame start: it is invalid, or holds TOKENS ≥ 0. -/
def tokensOk (s : State) (i : Nat) : Bool :=
  let x := (s.shaper i).refill s.tbNs
  !bitAt x.entry 127 || decide (0 ≤ x.tokens)

/-- A valid shaper charged with some bytes. -/
def State.chargeShaper (s : State) (i : Nat) (bytes : Int) : State :=
  let x := (s.shaper i).refill s.tbNs
  if bitAt x.entry 127 then
    s.modTables (fun t => { t with shaper := Map.ins t.shaper i { x with tokens := x.tokens - 8000000 * bytes } })
  else s

/-- The length a frame is scheduled by: a cut-through frame's is its estimate; and the length charged at an egress port
(R211). -/
def schedLen (f : Frame) : Nat := if f.cutThrough then f.estimate else f.bytes.length
def chargeLen (x : Port) (f : Frame) : Int := schedLen f + sfld x.egrSched 5 0

/-- Indices of the port-class and port shapers (Table 8.4). -/
def classShaper (p c : Nat) : Nat := 131072 + 8 * p + c
def portShaperIdx (p : Nat) : Nat := 139264 + p

/-! ### Buffer errors (R178) -/

/-- Source of a bank of the ingress or egress buffer (Table 14.6); a bank holds 1,536 or 1,024 cells. -/
def bankSource (sl : Nat) (egress : Bool) (cell : Nat) : Nat :=
  0x3000 + 0x100 * sl + (if egress then 0x80 + cell / 1024 else 0x40 + cell / 1536)

/-- A cell read with an error raises its fault. -/
def State.bufFault (s : State) (sl : Nat) (egress : Bool) : BufEcc → State
  | .good => s
  | .corrected c => s.raise (bankSource sl egress c.toNat) 0x080 1 1 c.toNat
  | .uncorrectable c => s.raise (bankSource sl egress c.toNat) 0x081 2 1 c.toNat

def badEcc : BufEcc → Bool
  | .uncorrectable _ => true
  | .good => false
  | .corrected _ => false

/-! ### Egress cells -/

/-- Cells of EQ[p][c], held and granted (R214). -/
def EgrClass.eqCells (e : EgrClass) : Nat := (e.queue.map (·.arrived)).sum + e.granted

/-- Cells of a port in the egress buffer, held or granted (R184). -/
def Port.egrCells (x : Port) : Nat := (x.egr.map (fun e => e.2.eqCells)).sum

/-- EGR_CFG.CELLS_MAX and EGR_SCHED.FILL (Tables 7.6, 8.6). -/
def Port.cellsMax (x : Port) : Nat := fld x.egrCfg 14 0
def Port.fill (x : Port) : Nat := fld x.egrSched 21 12

/-- Egress-buffer cells of a slice taken, and returned. -/
def State.egrTake (s : State) (sl n : Nat) : State := (s.modSlice sl (fun y => { y with egrUsed := y.egrUsed + n })).bufVote sl
def State.egrGive (s : State) (sl n : Nat) : State := (s.modSlice sl (fun y => { y with egrUsed := y.egrUsed - n })).bufVote sl

/-! ### Sending cells (R185) -/

/-- Planes in service between an ingress slice and some egress slices, in rotation order from the slice's turn. -/
def planesUp (s : State) (ins : Nat) (outs : List Nat) : List Nat :=
  ((List.range 6).map (fun k => ((s.slice ins).planeTurn + k) % 6)).filter
    (fun p => (ins :: outs).all (fun x => !bitAt (s.quad (x / 4)).planesDown p))

/-- A frame as its cells carry it. -/
def Frame.carried (f : Frame) : Frame := { f with sent := 0, pend := [], gateWaited := false, errored := false }

/-- One cell leaves an ingress slice on a plane, toward each egress slice with a number of its own. -/
def State.sendCell (s : State) (ins : Nat) (outs : List Nat) (port : Option PortNo) (idx : Nat) (f : Frame) (plane : Nat) : State :=
  let s1 := foldNats outs (fun a o =>
    let n := Map.val (a.slice ins).seqOut o 0
    let c : Cell := { plane := BitVec.ofNat 3 plane, inSlice := BitVec.ofNat 4 ins, outSlice := BitVec.ofNat 4 o, seq := n, port := port
                      idx := idx, frame := { f with sent := 0, pend := [] } }
    { a.modSlice ins (fun y => { y with seqOut := Map.ins y.seqOut o (n + 1) }) with fabric := a.fabric ++ [c] }) s
  (s1.modSlice ins (fun y => { y with planeTurn := (plane + 1) % 6 })).countQuad (ins / 4) (8 + plane) 1

/-! ### GRANT (R184, R214) -/

/-- A VOQ requests: it holds cells not yet covered by credit, and its shaper lets it. -/
def requests (s : State) (sl p c : Nat) : Bool :=
  let v := voqIndex sl p c
  (s.voq v).state != .flushing && !(s.voq v).onDie.isEmpty && tokensOk s v && !(planesUp s sl [p / 64]).isEmpty

/-- The slice whose VOQ of a class has the turn. -/
def grantSlice (s : State) (p c : Nat) (e : EgrClass) : Option Nat :=
  ((List.range 16).map (fun k => (e.sliceTurn + k) % 16)).find? (fun sl => sliceThere s sl && requests s sl p c)

/-- The class and slice that take a port's next grant. -/
def grantOf (s : State) (p : Nat) (x : Port) : Option (Nat × Nat) :=
  ((List.range 8).map (fun k => (x.grantTurn + k) % 8)).findSome? (fun c =>
    if (x.egrOf c).eqCells < x.fill then (grantSlice s p c (x.egrOf c)).map (fun sl => (c, sl)) else none)

/-- The head of a VOQ leaves it whole: its ingress cells return and it is counted, and a cut-through frame's charge, taken at
its estimate, is made true (R211). -/
def State.dequeue (s : State) (v : Nat) (f : Frame) : State :=
  let s1 := if f.cutThrough then s.chargeShaper v ((f.bytes.length : Int) - f.estimate) else s
  (((s1.modVoq v (fun y => { y with onDie := y.onDie.drop 1 })).release f).countVoq v 2 1).countVoq v 3 f.inLen

/-- Up to `n` cells of a VOQ enter the fabric. A frame is charged to its VOQ's shaper as its first cell enters, and starts
only while that shaper lets it. -/
def State.sendGranted (sl p c : Nat) : Nat → State → State
  | 0, s => s
  | n + 1, s =>
    let v := voqIndex sl p c
    match (s.voq v).onDie, s.port p, planesUp s sl [p / 64] with
    | f :: rest, some x, plane :: _ =>
      if f.sent = 0 && !tokensOk s v then s
      else
        let s0 := if f.sent = 0 then s.chargeShaper v (chargeLen x f) else s
        let s1 := ((s0.sendCell sl [p / 64] (some (BitVec.ofNat 10 p)) f.sent f plane).modPort p (fun y => y.modEgr c (fun e =>
          { e with granted := e.granted + 1 }))).egrTake (p / 64) 1
        let s2 := if f.size ≤ f.sent + 1 then s1.dequeue v f
          else s1.modVoq v (fun y => { y with onDie := { f with sent := f.sent + 1 } :: rest })
        State.sendGranted sl p c n s2
    | _, _, _ => s

/-- A frame in an ingress buffer with an uncorrectable error is dropped; a copy that has started is ended (R178). -/
def State.dropHead (s : State) (v : Nat) : State :=
  match (s.voq v).onDie with
  | [] => s
  | f :: _ =>
    ((((s.voidHead v).modVoq v (fun y => { y with onDie := y.onDie.drop 1 })).release f).countIn f 105)

/-- GRANT: the egress slice grants 4 cells while the port stays within CELLS_MAX and the buffer has room for them. -/
def giveGrant (p : Nat) (ecc : BufEcc) (s : State) : State :=
  match s.port p with
  | none => s
  | some x =>
    if s.mode != .run || x.cellsMax < x.egrCells + 4 || egrFree s (p / 64) < 4 then s
    else match grantOf s p x with
      | none => s
      | some (c, sl) =>
        let s1 := (s.modPort p (fun y => { (y.modEgr c (fun e => { e with sliceTurn := (sl + 1) % 16 })) with
          grantTurn := (c + 1) % 8 })).bufFault sl false ecc
        if badEcc ecc then s1.dropHead (voqIndex sl p c) else State.sendGranted sl p c 4 s1

def execGrant (port : PortNo) (ecc : BufEcc) (s : State) : Host.Outcome State Fault Refusal := .next (giveGrant port.toNat ecc s)

/-! ### FABRIC_CELL (R185, R195) -/

def Reorder.reset : Reorder := { next := 0, waiting := [], waitNs := none, lost := [], mcCells := 0 }
def Slice.reorderOf (x : Slice) (ins : Nat) : Reorder := Map.val x.reorder ins Reorder.reset
def State.modReorder (s : State) (o ins : Nat) (f : Reorder → Reorder) : State :=
  s.modSlice o (fun x => { x with reorder := Map.ins x.reorder ins (f (x.reorderOf ins)) })

/-- The egress cell that a cell was granted returns. -/
def State.credit (s : State) (c : Cell) : State :=
  (match c.port with
    | some p => s.modPort p.toNat (fun x => x.modEgr c.frame.queue.toNat (fun e => { e with granted := e.granted - 1 }))
    | none => s).egrGive c.outSlice.toNat 1

/-- The copy of a frame that a cell goes on with. -/
def EqFrame.awaits (e : EqFrame) (c : Cell) : Bool :=
  e.inSlice == c.inSlice && e.arrived == c.idx && e.short && e.frame.group.isNone

/-- The first of some copies that a cell goes on with takes it. -/
def takeCell (c : Cell) : List EqFrame → List EqFrame
  | [] => []
  | e :: es => if e.awaits c then { e with arrived := e.arrived + 1 } :: es else e :: takeCell c es

/-- A cell of a unicast frame reaches its egress queue, or the copy of it in transmission. While the link is down its frame
is discarded, counted with its first cell (R78). -/
def State.landCell (s : State) (p : Nat) (x : Port) (c : Cell) : State :=
  let k := c.frame.queue.toNat
  if x.tx.any (·.awaits c) then
    (s.credit c).modPort p (fun y => { y with tx := y.tx.map (fun e => { e with arrived := e.arrived + 1 }) })
  else if !x.link.up then (if c.idx = 0 then (s.credit c).countPort p 35 1 else s.credit c)
  else if c.idx = 0 then
    s.modPort p (fun y => y.modEgr k (fun e => { e with
      granted := e.granted - 1, queue := e.queue ++ [{ frame := c.frame, arrived := 1, inSlice := c.inSlice }] }))
  else if (x.egrOf k).queue.any (·.awaits c) then
    s.modPort p (fun y => y.modEgr k (fun e => { e with granted := e.granted - 1, queue := takeCell c e.queue }))
  else s.credit c

/-- A frame enters EQ[p][c] whole, with cells of its own in the egress buffer. -/
def State.toEq (s : State) (p c : Nat) (f : Frame) (ins : SliceNo) : State :=
  (s.modPort p (fun y => y.modEgr c (fun e => { e with
    queue := e.queue ++ [{ frame := f, arrived := f.size, inSlice := ins }] }))).egrTake (p / 64) f.size

/-- A multicast copy for a member port, in the form the port sends it (R122, R195): dropped where the index holds no port, the
link is down, the watchdog drops its class, or CELLS_MAX is reached. -/
def State.copyTo (s : State) (p : Nat) (f : Frame) (ins : SliceNo) : State :=
  match s.port p with
  | none => s.countIn f 37
  | some x =>
    let g := match f.vlan with
      | some v => f.tagged s p v.toNat
      | none => f
    if !x.link.up then s.countPort p 35 1
    else if (x.pauseOf f.queue.toNat).storm && bitAt x.guard 62 then s.countPort p 36 1
    else if x.cellsMax < x.egrCells + g.size then s.countPort p 111 1
    else s.toEq p f.queue.toNat g ins

/-- The member ports of a group in a slice (Table 5.6), the ingress port of a flooded frame apart (R122). -/
def membersOf (s : State) (o : Nat) (f : Frame) : List Nat :=
  match f.group with
  | none => []
  | some g => ((bitsSet 64 (Map.val s.tables.mcEgress (65536 * o + g.toNat) 0).toNat).map (64 * o + ·)).filter
      (fun p => !(f.flood && p == f.port))

/-- A cell, in its order, at its egress slice. A void cell only returns its credit; the last cell of a multicast frame makes
the copies. -/
def State.landed (s : State) (c : Cell) : State :=
  if c.frame.bytes.isEmpty then s.credit c
  else
    let o := c.outSlice.toNat
    match c.port with
    | some p => match s.port p.toNat with
      | none => s.credit c
      | some x => s.landCell p.toNat x c
    | none =>
      if c.idx + 1 < c.frame.size then
        s.modReorder o c.inSlice.toNat (fun r => { r with mcCells := r.mcCells + 1 })
      else
        foldNats (membersOf s o c.frame) (fun a p => a.copyTo p c.frame c.inSlice)
          ((s.modReorder o c.inSlice.toNat (fun r => { r with mcCells := 0 })).egrGive o c.frame.size)

/-- Cells that have waited for their order go on as far as the numbers run. -/
def State.drainOrder (o ins : Nat) : Nat → State → State
  | 0, s => s
  | n + 1, s =>
    let r := (s.slice o).reorderOf ins
    match r.waiting.find? (fun c => c.seq == r.next) with
    | none => s.modReorder o ins (fun r => { r with waitNs := if r.waiting.isEmpty then none else some (r.waitNs.getD s.tbNs) })
    | some c =>
      State.drainOrder o ins n ((s.modReorder o ins (fun r => { r with
        next := r.next + 1, waiting := r.waiting.erase c, waitNs := none })).landed c)

/-- A cell reaches its egress slice: it waits for its order; one behind the order was given up. -/
def State.arrive (s : State) (c : Cell) : State :=
  let o := c.outSlice.toNat
  let i := c.inSlice.toNat
  let r := (s.slice o).reorderOf i
  if c.seq < r.next then s.credit c
  else State.drainOrder o i (r.waiting.length + 2) (s.modReorder o i (fun r => { r with waiting := r.waiting ++ [c] }))

/-- FABRIC_CELL: the cell that stands `idx`-th among those on their way to a slice. -/
def fabricArrival (o idx : Nat) (s : State) : State :=
  match (s.fabric.filter (fun c => c.outSlice.toNat == o))[idx]? with
  | none => s
  | some c => State.arrive { s with fabric := s.fabric.erase c } c

def execFabricCell (slice : SliceNo) (idx : Nat) (s : State) : Host.Outcome State Fault Refusal :=
  .next (fabricArrival slice.toNat idx s)

/-! ### A plane fails (R186) -/

/-- A cell lies on a plane of a quadrant. -/
def onPlane (q k : Nat) (c : Cell) : Bool :=
  c.plane.toNat == k && (c.inSlice.toNat / 4 == q || c.outSlice.toNat / 4 == q)

/-- Some cells are lost in the fabric: each returns its credit, and its frame is incomplete. -/
def State.loseInFlight (s : State) (p : Cell → Bool) : State :=
  (s.fabric.filter p).foldl (fun a c =>
    let b := a.credit c
    if c.frame.bytes.isEmpty then b
    else b.modReorder c.outSlice.toNat c.inSlice.toNat (fun r => { r with lost := r.lost ++ [c] }))
    { s with fabric := s.fabric.filter (fun c => !p c) }

/-- PLANE_FAIL: the fault, HALT for a second plane of the quadrant; the cells on the plane are lost. -/
def failPlane (q k : Nat) (s : State) : State :=
  let down := (s.quad q).planesDown
  if !quadThere s q || bitAt down k || s.mode == .reset then s
  else
    ((s.loseInFlight (onPlane q k)).modQuad q (fun x => { x with planesDown := down ||| BitVec.ofNat 6 (2 ^ k) })).raise (0x2000 + 0x100 * q + k) 0x083
      (if down = 0 then 2 else 3) 1 k

def execPlaneFail (q : QuadNo) (plane : BitVec 3) (s : State) : Host.Outcome State Fault Refusal :=
  if 6 ≤ plane.toNat then .fault .noSuchUnit else .next (failPlane q.toNat plane.toNat s)

/-- A copy that is not yet whole. -/
def EqFrame.partly (ins : Nat) (e : EqFrame) : Bool :=
  e.inSlice.toNat == ins && e.short

/-- The incomplete frames of an ingress slice at an egress slice: those that lost a cell, and those whose cells have not all
arrived. -/
def incomplete (s : State) (o ins : Nat) : List Frame :=
  let r := (s.slice o).reorderOf ins
  let held := s.ports.flatMap (fun e => if e.1 / 64 = o then
      (e.2.tx.toList ++ e.2.egr.flatMap (fun k => k.2.queue)).filter (EqFrame.partly ins) else [])
  (r.lost.map (fun c => c.frame.carried) ++ held.map (fun e => e.frame.carried)).eraseDups

/-- A port's incomplete copies of an ingress slice are discarded; one in transmission will end with an error code. -/
def Port.cutPartly (ins : Nat) (x : Port) : Port :=
  { x with
    egr := x.egr.map (fun e => (e.1, { e.2 with queue := e.2.queue.filter (fun y => !y.partly ins) }))
    tx := x.tx.map (fun e => if e.partly ins then { e with frame := { e.frame with errored := true } } else e) }

/-- Egress cells that a port's incomplete copies hold. -/
def Port.partlyCells (ins : Nat) (x : Port) : Nat :=
  (x.egr.map (fun e => ((e.2.queue.filter (EqFrame.partly ins)).map (·.arrived)).sum)).sum

/-- The part of a discarded frame that has not left its VOQ is discarded too. -/
def State.cutVoq (s : State) (gone : List Frame) (v : Nat) : State :=
  match (s.voq v).onDie with
  | [] => s
  | f :: _ =>
    if 0 < f.sent && gone.contains f.carried then (s.modVoq v (fun y => { y with onDie := y.onDie.drop 1 })).release f else s

/-- FABRIC_SEQ_TIMEOUT: the missing number is given up after 2 µs. The incomplete frames of the ingress slice are discarded,
with every cell of theirs, and counted; the order resumes at the lowest number that has arrived. -/
def seqTimeout (o ins : Nat) (s : State) : State :=
  let r := (s.slice o).reorderOf ins
  match r.waitNs with
  | none => s
  | some t =>
    if s.tbNs ≤ t + 2000 then s
    else
      let gone := incomplete s o ins
      let drop := fun (c : Cell) => if c.inSlice.toNat == ins && c.outSlice.toNat == o && gone.contains c.frame.carried then c.void else c
      let cells := (s.ports.map (fun e => if e.1 / 64 = o then e.2.partlyCells ins else 0)).sum + r.mcCells
      let s1 : State := { s with
        fabric := s.fabric.map drop, ports := s.ports.map (fun e => (e.1, if e.1 / 64 = o then e.2.cutPartly ins else e.2)) }
      let s2 := (s1.egrGive o cells).modReorder o ins (fun r => { r with
        next := (r.waiting.map (·.seq)).foldl min ((r.waiting.map (·.seq)).headD r.next), waiting := r.waiting.map drop, lost := []
        mcCells := 0, waitNs := none })
      let s3 := foldNats (List.range 512) (fun a k => a.cutVoq gone (8192 * ins + 512 * o + k)) s2
      State.drainOrder o ins (r.waiting.length + 1) (s3.countSlice o 281 gone.length)

def execFabricSeqTimeout (slice inSlice : SliceNo) (s : State) : Host.Outcome State Fault Refusal :=
  .next (seqTimeout slice.toNat inSlice.toNat s)

/-! ### Multicast passes and splits (R196 to R198) -/

/-- MC_HOLD of a slice, and whether it has elapsed for the head of a multicast queue. -/
def holdOver (s : State) (sl : Nat) (m : Mcq) : Bool :=
  match m.headSince with
  | none => false
  | some t => decide (t + fld (s.slice sl).bufMc 16 0 ≤ s.tbNs)

/-- Slices of PEND that now grant a copy of the head: their egress buffer has free cells for it. -/
def newGrants (s : State) (m : Mcq) (f : Frame) : List Nat :=
  f.pend.filter (fun e => !m.granted.contains e && decide (f.size ≤ egrFree s e))

/-- The pass may start: every slice has granted, or 64 core clocks (128 / 3 ns) have passed since the first grant. -/
def passDue (s : State) (m : Mcq) (f : Frame) : Bool :=
  f.pend.all m.granted.contains || (match m.firstGrant with
    | some t => decide (128 * nsUnit ≤ 3 * (s.time.tb - t))
    | none => false)

/-- The cells of a frame are sent once, toward the slices that granted. -/
def State.sendPass (sl : Nat) (f : Frame) (g : List Nat) : List Nat → State → State
  | [], s => s
  | k :: ks, s => match planesUp s sl g with
    | [] => s
    | plane :: _ => State.sendPass sl f g ks (s.sendCell sl g none k f plane)

/-- A pass with the slices that granted: REF and PEND lose them when its last cell leaves. -/
def State.pass (s : State) (sl c : Nat) (f : Frame) : State :=
  let m := (s.slice sl).mcqOf c
  let s1 := (State.sendPass sl f m.granted (List.range f.size) s).countSlice sl (256 + c) 1
  let left := f.pend.filter (fun e => !m.granted.contains e)
  let s2 := s1.modMcq sl c (fun m => { m with frames := { f with pend := left } :: m.frames.drop 1, firstGrant := none, granted := [] })
  if left.isEmpty then (s2.mcPop sl c).nextHead sl c else s2

/-- The head of a multicast queue, read with an uncorrectable error as its pass starts, is dropped: no copy of it has started at
an egress port. What its grants reserved is returned (R178). -/
def State.mcSpoilt (s : State) (sl c : Nat) (f : Frame) : State :=
  let m := (s.slice sl).mcqOf c
  let s1 := foldNats m.granted (fun a e => a.egrGive e f.size) s
  (((s1.countIn f 105).modMcq sl c (fun m => { m with granted := [], firstGrant := none })).mcPop sl c).nextHead sl c

/-- MC_PASS: the slices that can, grant; the pass starts when it is due, and `ecc` is how its cells are read. -/
def mcPass (sl c : Nat) (ecc : BufEcc) (s : State) : State :=
  let m := (s.slice sl).mcqOf c
  match m.frames with
  | [] => s
  | f :: _ =>
    if s.mode != .run || holdOver s sl m then s
    else
      let g := newGrants s m f
      let s1 := foldNats g (fun a e => a.egrTake e f.size) s
      let s2 := s1.modMcq sl c (fun m => { m with
        granted := m.granted ++ g, firstGrant := if g.isEmpty then m.firstGrant else some (m.firstGrant.getD s.time.tb) })
      let m2 := (s2.slice sl).mcqOf c
      if !m2.granted.isEmpty && passDue s2 m2 f && !(planesUp s2 sl m2.granted).isEmpty then
        let s3 := s2.bufFault sl false ecc
        if badEcc ecc then s3.mcSpoilt sl c f else s3.pass sl c f
      else s2

def execMcPass (slice : SliceNo) (pass : PassRead) (s : State) : Host.Outcome State Fault Refusal :=
  .next (mcPass slice.toNat pass.cls.toNat pass.ecc s)

/-- MC_SPLIT: MC_HOLD has elapsed; grants of the head are returned unused and its remaining copies are split off. -/
def mcSplit (sl c : Nat) (s : State) : State :=
  let m := (s.slice sl).mcqOf c
  match m.frames with
  | [] => s
  | f :: _ =>
    if s.mode != .run || !holdOver s sl m then s
    else
      let s1 := foldNats m.granted (fun a e => a.egrGive e f.size) s
      ((f.pend.foldl (fun a e => a.splitCopy sl f e) s1).mcPop sl c).nextHead sl c

def execMcSplit (slice : SliceNo) (cls : ClassNo) (s : State) : Host.Outcome State Fault Refusal :=
  .next (mcSplit slice.toNat cls.toNat s)

/-! ### Spill read-back (R189, R194, R197) -/

/-- Source of a quadrant's spill controller. -/
def spillSource (q : Nat) : Nat := 0x2009 + 0x100 * q

/-- The frames of a segment that one request of 64 spill cells reads. -/
def readable : Nat → List Frame → List Frame
  | _, [] => []
  | k, f :: fs => if spillCells f ≤ k then f :: readable (k - spillCells f) fs else []

/-- Spill cells read: their tokens and counter; the cells are released. -/
def State.spillRead (s : State) (q : Nat) (r : Runs) : State :=
  let k := Runs.count r
  ((s.modQuad q (fun x => { x with readTok := x.readTok - 1024 * k })).spillGive q r).countQuad q 1 k

/-- A frame read back takes ingress cells from the shared pool without the α test. -/
def State.readIn (s : State) (f : Frame) : State × Frame :=
  let g := { f with account := .shared, cells := f.size, spillAt := [] }
  (s.charge g .shared g.cells true, g)

/-- A VOQ whose segment is empty is ON_DIE again. -/
def Voq.settled (x : Voq) : Voq := if x.spill.isEmpty && x.state == .spilling then { x with state := .onDie } else x

/-- A frame lost in spill is counted at its ingress port. -/
def State.spillLost (s : State) (l : List Frame) : State := l.foldl (fun a f => a.countPort f.port 106 1) s

/-- Spill cells that can no longer be reached are out of service (R194). -/
def State.loseCells (s : State) (q k : Nat) : State :=
  s.modQuad q (fun x => { x with lost := min (x.lost + k) 0x7FFFFF })

/-- What a request reads of a segment: the frames that come back, those that are lost, and the spill cells that can not be
reached. -/
def readResult (l : List Frame) : SpillEcc → List Frame × List Frame × Nat
  | .good => (readable 64 l, [], 0)
  | .corrected _ => (readable 64 l, [], 0)
  | .dataLost _ => ((readable 64 l).drop 1, l.take 1, 0)
  | .linkLost _ unreached => ([], l, unreached)
  | .buffer _ => (readable 64 l, [], 0)

/-- The fault of a request. -/
def State.spillFault (s : State) (q : Nat) : SpillEcc → State
  | .corrected c => s.raise (spillSource q) 0x084 1 1 c.toNat
  | .linkLost c _ => s.raise (spillSource q) 0x085 2 1 c.toNat
  | .good => s
  | .dataLost _ => s
  | .buffer _ => s

/-- Spill read-back may start: the HBM is in service, the shared pool has 1,024 free cells, and there are tokens. -/
def mayRead (s : State) (sl : Nat) (l : List Frame) : Bool :=
  s.mode == .run && s.domOn (40 + sl / 4) && decide (1024 ≤ sharedFree s sl) &&
  decide (1024 * ((readable 64 l).map spillCells).sum ≤ (s.quad (sl / 4)).readTok)

/-- The spill cells of some frames in chain order, less the last `n`, which can not be reached. -/
def reachedCells (l : List Frame) (n : Nat) : Runs :=
  let r := l.flatMap (·.spillAt)
  (Runs.split (Runs.count r - n) r).1

/-- SPILL_READBACK of a VOQ; one whose segment is empty only returns to ON_DIE (R189). -/
def readVoq (sl v : Nat) (ecc : SpillEcc) (s0 : State) : State :=
  let q := sl / 4
  let s := s0.spillRefill q
  let x := s.voq v
  if x.spill.isEmpty then s0.modVoq v Voq.settled
  else if x.state != .spilling || 256 ≤ x.onDieCells || !mayRead s sl x.spill then s0
  else
    let r := readResult x.spill ecc
    let all := r.1 ++ r.2.1
    let s1 := (((s.spillRead q (reachedCells all r.2.2)).loseCells q r.2.2).spillLost r.2.1).spillFault q ecc
    let s2 := r.1.foldl (fun a f =>
      let b := a.readIn f
      b.1.modVoq v (fun y => { y with onDie := y.onDie ++ [b.2] })) s1
    (s2.modVoq v (fun y => Voq.settled { y with spill := y.spill.drop all.length })).bufVote sl

/-- SPILL_READBACK of a residue queue: slice e grants its oldest copy, which is read back and sent. -/
def readResidue (sl e c : Nat) (ecc : SpillEcc) (s0 : State) : State :=
  let q := sl / 4
  let s := s0.spillRefill q
  match mcrOf s sl e c with
  | [] => s0
  | f :: rest =>
    let n := f.size
    if !mayRead s sl [f] || egrFree s e < n || (planesUp s sl [e]).isEmpty then s0
    else match ecc with
      | .linkLost cell unreached =>
        let l := f :: rest
        (((((s.spillRead q (reachedCells l unreached)).loseCells q unreached).spillLost l).spillFault q
          (.linkLost cell unreached))).setMcr sl e c []
      | .dataLost _ => ((s.spillRead q f.spillAt).spillLost [f]).setMcr sl e c rest
      | _ =>
        let buf := match ecc with
          | .buffer b => b
          | _ => .good
        let s1 := (((s.spillRead q f.spillAt).spillFault q ecc).setMcr sl e c rest).bufFault sl false buf
        let b := s1.readIn f
        if badEcc buf then (b.1.countIn f 105).release b.2
        else (State.sendPass sl b.2 [e] (List.range n) (b.1.egrTake e n)).release b.2

def readBack (sl : Nat) (k : SpillQueue) (ecc : SpillEcc) (s : State) : State :=
  match k with
  | .voq v => readVoq sl (8192 * sl + v.toNat) ecc s
  | .residue e c => readResidue sl e.toNat c.toNat ecc s

def execSpillReadback (slice : SliceNo) (queue : SpillQueue) (ecc : SpillEcc) (s : State) : Host.Outcome State Fault Refusal :=
  .next (readBack slice.toNat queue ecc s)

/-! ### Caddy, the build and the walk (R191 to R193) -/

/-- Cells of a spill region. -/
def regionCells : Nat := 58720256

/-- CADDY_REFILL: a burst of 256 from the head of the ring. -/
def refill (q : Nat) (s : State) : State :=
  let x := s.quad q
  if x.spillReady && decide (Runs.count x.caddy < 1024) && decide (0 < Runs.count x.ring) then
    (s.modQuad q (fun y => y.refilled 1)).countQuad q 2 1
  else s

/-- CADDY_WRITEBACK: a burst of 256 to the tail of the ring. -/
def writeback (q : Nat) (s : State) : State :=
  if (s.quad q).spillReady && decide (3072 < Runs.count (s.quad q).caddy) then
    (s.modQuad q (fun y => y.wroteBack 1)).countQuad q 3 1
  else s

def execCaddyRefill (q : QuadNo) (s : State) : Host.Outcome State Fault Refusal := .next (refill q.toNat s)
def execCaddyWriteback (q : QuadNo) (s : State) : Host.Outcome State Fault Refusal := .next (writeback q.toNat s)

/-- SPILL_BUILD_DONE: the ring holds every cell but those retired, in rising order (assumption 81); LOST is cleared. -/
def buildDone (q : Nat) (s : State) : State :=
  if (s.quad q).spillBuilding then
    s.modQuad q (fun x => { x with
      spillReady := true, spillBuilding := false, ring := Runs.withoutAll x.spillRetired [(0, regionCells)], caddy := [], lost := 0 })
  else s

def execSpillBuildDone (q : QuadNo) (s : State) : Host.Outcome State Fault Refusal := .next (buildDone q.toNat s)

/-- VOQ_FLUSH commands that wait for a VOQ complete when it is ON_DIE. -/
def State.endFlush (s : State) (v : Nat) : State :=
  let w := (s.voq v).waiters
  w.foldl (fun a x => a.finishAt x.1.toNat x.2.1 .ok 4 (x.2.2.setWidth 384)) (s.modVoq v (fun y => { y with waiters := [] }))

/-- Spill cells of a walk that can not be reached (R194). -/
def unreachedBy : SpillEcc → Nat
  | .linkLost _ n => n
  | .good => 0
  | .corrected _ => 0
  | .dataLost _ => 0
  | .buffer _ => 0

/-- FLUSH_WALK_DONE: the walk returns every pointer of the segment that it reaches to Caddy; `ecc` is what it met on its way
(R193, R194). -/
def walkDone (v : Nat) (ecc : SpillEcc) (s : State) : State :=
  if (s.voq v).state == .flushing then
    let q := voqSlice v / 4
    let r := (s.voq v).walk
    let n := min (unreachedBy ecc) (Runs.count r)
    let s1 := ((s.spillGive q (Runs.split (Runs.count r - n) r).1).loseCells q n).spillFault q ecc
    State.endFlush (s1.modVoq v (fun y => { y with walk := [], state := .onDie })) v
  else s

def execFlushWalkDone (slice : SliceNo) (walk : FlushWalk) (s : State) : Host.Outcome State Fault Refusal :=
  .next (walkDone (8192 * slice.toNat + walk.voq.toNat) walk.ecc s)

/-- A quadrant's spill region is emptied: its segments, residue queues and walks are gone, and the VOQs are ON_DIE. -/
def State.dropSpill (s : State) (q : Nat) : State :=
  let vs := (s.voqs.filter (fun e => e.1 / 32768 == q && (e.2.state != .onDie))).map (·.1)
  let s1 := foldNats vs (fun a v => (a.modVoq v (fun y => { y with state := .onDie, spill := [], walk := [] })).endFlush v) s
  let s2 := foldNats (List.range 4) (fun a k => a.modSlice (4 * q + k) (fun y => { y with mcr := [] })) s1
  s2.modQuad q (fun x => { x with spillReady := false, spillBuilding := false, ring := [], caddy := [], lost := 0 })

/-- The build of a quadrant's ring starts (R192). -/
def State.buildSpill (s : State) (q : Nat) : State :=
  if hbmThere s q && s.domOn (40 + q) then
    (s.dropSpill q).modQuad q (fun x => { x with spillBuilding := true, writeTok := 262144, readTok := 262144, tokNs := s.tbNs })
  else s.dropSpill q

/-! ### Commands (Table 7.10) -/

/-- The slices that BUF_CLASS_SET names. -/
def classSlices (s : State) (slice : Handle) : List Nat :=
  if fld slice 19 0 = 0xFFFFF then slicesThere s else [fld slice 19 0]

/-- Values that BUF_CLASS_SET refuses (R181, Table 7.5). -/
def badBufClass (v : BitVec 32) : Bool :=
  decide (8 < fld v 27 24) || decide (8 < fld v 23 20) || decide (8 < fld v 19 16) || decide (fld v 15 0 < 64)

def setBufClass (slice : Handle) (c : Nat) (v : BitVec 32) (s : State) : Res :=
  .ok 0 (foldNats (classSlices s slice) (fun a sl => a.modSlice sl (fun x => { x with bufClass := Map.ins x.bufClass c v })) s).agents

def execBufClassSet (sub : Sub) (slice : Handle) (cls : ClassNo) (fields : BitVec 32) (s : State) :
    Host.Outcome State Fault Refusal :=
  .next (runCommand Cat.bufClassSet sub (pack 384 [(31, 0, slice.toNat), (34, 32, cls.toNat), (95, 64, fields.toNat)])
    { bad := fun _ => badBufClass fields
      absent := fun s => bitAt fields 31 && s.fuses.member == 3
      doms := fun s => (classSlices s slice).map (4 + ·)
      act := setBufClass slice cls.toNat fields } s)

def execBufClassGet (sub : Sub) (slice : Handle) (cls : ClassNo) (s : State) : Host.Outcome State Fault Refusal :=
  .next (runCommand Cat.bufClassGet sub (pack 384 [(31, 0, slice.toNat), (34, 32, cls.toNat)])
    { doms := fun _ => [4 + fld slice 19 0]
      act := fun s => .ok (((s.slice (fld slice 19 0)).classReg cls.toNat).setWidth 384) s } s)

/-- VOQ_FLUSH: the VOQ is discarded; the command waits where it has a segment to be walked. -/
def flushVoq (sub : Sub) (v : Nat) (s : State) : Res :=
  let r := s.discardVoq v
  let n : BitVec 32 := BitVec.ofNat 32 (sat 32 r.2)
  if (r.1.voq v).state == .onDie then .ok (n.setWidth 384) r.1
  else .wait (r.1.modVoq v (fun y => { y with waiters := y.waiters ++ [(sub.queue, sub.index, n)] }))

def execVoqFlush (sub : Sub) (voq : Handle) (s : State) : Host.Outcome State Fault Refusal :=
  .next (runCommand Cat.voqFlush sub (pack 384 [(31, 0, voq.toNat)])
    { doms := fun _ => [4 + voqSlice (fld voq 19 0)]
      act := flushVoq sub (fld voq 19 0) } s)

end Sys2Proof.Machine
end

