-- ==== Sys2Proof/Machine/Gates.lean ====
section
/-! DEFINITION. Gate lists and their timeline (R217 to R221), with their commands and the rows GATE_LIST_START and
GATE_ENTRY_CHANGE. -/

namespace Sys2Proof.Machine

/-! ### One list -/

/-- An entry as it is in force within a cycle: from `lo` to `hi` ns of it. -/
structure Seg where
  lo : Nat
  hi : Nat
  gates : BitVec 8
deriving DecidableEq, Repr

/-- The entries of a cycle: the last holds until its end, and what lies behind the end is not used (R217). -/
def segsFrom (cycle : Nat) : Nat → List (BitVec 8 × Nat) → List Seg
  | _, [] => []
  | off, (g, i) :: rest =>
    if cycle ≤ off then []
    else if rest.isEmpty then [{ lo := off, hi := cycle, gates := g }]
    else { lo := off, hi := min (off + i) cycle, gates := g } :: segsFrom cycle (off + i) rest

/-- The segments of a list; every gate is open in one of COUNT 0. -/
def GateList.segs (l : GateList) : List Seg :=
  if l.entries.isEmpty then [{ lo := 0, hi := l.cycle, gates := 0xFF }] else segsFrom l.cycle 0 l.entries

/-- Units of 2^-32 ns in a cycle, and the place of an instant in its cycle. -/
def GateList.units (l : GateList) : Nat := l.cycle * nsUnit
def GateList.pos (l : GateList) (t : Nat) : Nat := (((t : Int) - ofTime l.base) % (l.units : Int)).toNat

/-- The segment in force at an instant. -/
def GateList.segAt (l : GateList) (t : Nat) : Option Seg := l.segs.find? (fun s => decide (l.pos t < s.hi * nsUnit))

/-- A gate is open at an instant. -/
def GateList.opens (l : GateList) (c t : Nat) : Bool := (l.segAt t).any (fun s => bitAt s.gates c)

/-- The next instant after `t` at which a list closes a gate; none where it never does. -/
def GateList.closes (l : GateList) (c t : Nat) : Option Nat :=
  let shut := fun (s : Seg) => !bitAt s.gates c
  match l.segs.find? (fun s => decide (l.pos t < s.lo * nsUnit) && shut s) with
  | some s => some (t + s.lo * nsUnit - l.pos t)
  | none => (l.segs.find? shut).map (fun s => t + (l.units - l.pos t) + s.lo * nsUnit)

/-- The longest of some runs of open segments, in ns. -/
def longestRun (c : Nat) : Nat → Nat → List Seg → Nat
  | best, _, [] => best
  | best, run, s :: ss =>
    let r := if bitAt s.gates c then run + (s.hi - s.lo) else 0
    longestRun c (max best r) r ss

/-- The longest window of a class, joined across the cycle boundary; none where every entry opens the class (R219). -/
def GateList.window (l : GateList) (c : Nat) : Option Nat :=
  if l.segs.all (fun s => bitAt s.gates c) then none else some (longestRun c 0 0 (l.segs ++ l.segs))

/-! ### The timeline of a port (R220): the list in operation before START of the pending one, that one from START -/

def Port.gateAt (x : Port) (t : Nat) : Option GateList :=
  match x.gatePend with
  | some l => if l.start ≤ t then some l else x.gateOper
  | none => x.gateOper

def Port.gateOpen (x : Port) (c t : Nat) : Bool := (x.gateAt t).all (fun l => l.opens c t)

/-- t_close of R218 for a class whose gate is open at `t`. -/
def Port.closesAt (x : Port) (c t : Nat) : Option Nat :=
  let a := (x.gateAt t).bind (fun l => l.closes c t)
  match x.gatePend with
  | none => a
  | some l =>
    if l.start ≤ t then a
    else
      let after := if l.opens c l.start then l.closes c l.start else some l.start
      match a with
      | some u => if u < l.start then some u else after
      | none => after

/-- A frame of a length fits its gate at an instant (R218). -/
def Port.fitsGate (x : Port) (c t len : Nat) : Bool :=
  x.gateOpen c t && (match x.closesAt c t with
    | none => true
    | some u => decide ((len + 20) * 8 * nsUnit ≤ (u - 4 * nsUnit - t) * x.rate))

/-- A frame of a true length fits no window of the list in force (R219). -/
def Port.neverFits (x : Port) (c t len : Nat) : Bool :=
  match (x.gateAt t).bind (fun l => l.window c) with
  | none => false
  | some w => decide (w * x.rate < (len + 20) * 8 + 4 * x.rate)

/-! ### Closings (R218): every frame that waits past one is counted once -/

/-- The frames that wait in a class as its gate closes. -/
def State.countWaits (s : State) (p c : Nat) : State :=
  match s.port p with
  | none => s
  | some x =>
    let n := (x.egrOf c).queue.countP (fun e => !e.frame.gateWaited)
    (s.modPort p (fun y => y.modEgr c (fun e => { e with
      queue := e.queue.map (fun q => { q with frame := { q.frame with gateWaited := true } }) }))).countPort p (144 + c) n

/-- GATE_ENTRY_CHANGE: an entry has come into force; the classes that it closes, and that were open just before it. -/
def entryChange (p : Nat) (s : State) : State :=
  match s.port p with
  | none => s
  | some x =>
    let now := s.sliceDev (p / 64)
    match x.gateAt now with
    | none => s
    | some l => match l.segAt now with
      | none => s
      | some g =>
        let began := now - (l.pos now - g.lo * nsUnit)
        let shut := classes.filter (fun c => !bitAt g.gates c && decide (0 < began) && x.gateOpen c (began - 1))
        foldNats shut (fun a c => a.countWaits p c) s

def execGateEntryChange (port : PortNo) (s : State) : Host.Outcome State Fault Refusal := .next (entryChange port.toNat s)

/-- GATE_LIST_START: the pending list takes over at its START. -/
def startList (p : Nat) (s : State) : State :=
  match s.port p with
  | none => s
  | some x => match x.gatePend with
    | none => s
    | some l =>
      if s.sliceDev (p / 64) < l.start then s
      else
        let shut := classes.filter (fun c => !l.opens c l.start && x.gateOper.all (fun o => o.opens c (l.start - 1)))
        (foldNats shut (fun a c => a.countWaits p c) s).modPort p (fun y => { y with gateOper := some l, gatePend := none })

def execGateListStart (port : PortNo) (s : State) : Host.Outcome State Fault Refusal := .next (startList port.toNat s)

/-! ### Commands (Tables 8.8 to 8.10, R221, R328) -/

/-- The entries of a buffer. -/
def gateEntries (n : Nat) (bs : List Byte) : List (BitVec 64) :=
  (List.range n).map (fun k => BitVec.ofNat 64 (leNat (slice bs (8 * k) 8)))

/-- An entry out of range or with a reserved bit (Table 8.10). -/
def badGateEntry (e : BitVec 64) : Bool := fld e 55 32 != 0 || !inRange (fld e 31 0) 8 1000000000

/-- A time value that R16 refuses: NSEC out of range, or a reserved bit. -/
def badTime (t : TimeVal) : Bool := decide (1000000000 ≤ fld t 63 32) || fld t 15 0 != 0

/-- START: the earliest cycle boundary of the list at least 4 µs away, k ≥ 0 (R220). -/
def startOf (base cycle now : Nat) : Nat :=
  let due := now + 4000 * nsUnit
  if due ≤ base then base else base + roundUp (cycle * nsUnit) (due - base)

/-- GATE_LIST_SET. -/
def setGates (p : Nat) (base : TimeVal) (cycle count : Nat) (data : HostData) (s : State) : Res :=
  match s.port p with
  | none => .fail .notFound s
  | some x =>
    if x.gatePend.isSome then .fail .busy s
    else match data with
      | none => .fail .dmaError s
      | some bs =>
        let es := gateEntries count bs
        if es.any badGateEntry then .fail .badParam s
        else
          let l : GateList := { base := base, cycle := cycle, start := startOf (ofTime base) cycle s.time.dev
                                entries := es.map (fun e => (BitVec.ofNat 8 (fld e 63 56), fld e 31 0)) }
          .ok ((timeOf l.start).setWidth 384) (s.modPort p (fun y => { y with gatePend := some l }))

def execGateListSet (sub : Sub) (base : TimeVal) (cycle : BitVec 32) (count : BitVec 11) (buf : Addr) (gate : Handle)
    (data : HostData) (s : State) : Host.Outcome State Fault Refusal :=
  .next (runCommand Cat.gateListSet sub
    (pack 384 [(319, 192, base.toNat), (191, 160, cycle.toNat), (138, 128, count.toNat), (127, 64, buf.toNat), (63, 32, gate.toNat)])
    { bad := fun _ => misaligned buf || badTime base || !inRange cycle.toNat 1000 1000000000 || decide (1024 < count.toNat)
      doms := fun _ => [4 + fld gate 19 0 / 64]
      act := setGates (fld gate 19 0) base cycle.toNat count.toNat data } s)

/-- CYCLES and IN_FORCE of the list in operation. -/
def cyclesOf (l : GateList) (now : Nat) : Nat := (now - l.start) / l.units
def inForce (l : GateList) (now : Nat) : Nat :=
  if l.entries.isEmpty then 0 else l.segs.findIdx (fun s => decide (l.pos now < s.hi * nsUnit))

/-- The block of one list: its header, then its entries. -/
def gateBlock (l : Option GateList) (oper : Bool) (now : Nat) : List Byte :=
  match l with
  | none => List.replicate 64 0
  | some l =>
    leBytes 64 (pack 512 [(447, 320, (timeOf l.start).toNat), (319, 192, l.base.toNat), (191, 160, l.cycle),
      (149, 139, if oper then inForce l now else 0), (138, 128, l.entries.length), (127, 64, if oper then cyclesOf l now else 0),
      (0, 0, 1)]).toNat ++
    l.entries.flatMap (fun e => leBytes 8 (pack 64 [(63, 56, e.1.toNat), (31, 0, e.2)]).toNat)

/-- Entries of a list that may be absent. -/
def gateCount (l : Option GateList) : Nat := (l.map (fun x => x.entries.length)).getD 0

/-- GATE_LIST_GET: the operational list, then the pending one. -/
def getGates (p : Nat) (buf : Addr) (s : State) : Res :=
  match s.port p with
  | none => .fail .notFound s
  | some x =>
    let bs := gateBlock x.gateOper true s.time.dev ++ gateBlock x.gatePend false s.time.dev
    .ok (BitVec.ofNat 384 bs.length) (s.writeBuf buf bs)

def execGateListGet (sub : Sub) (gate : Handle) (bufLen : BitVec 32) (buf : Addr) (s : State) : Host.Outcome State Fault Refusal :=
  .next (runCommand Cat.gateListGet sub (pack 384 [(31, 0, gate.toNat), (63, 32, bufLen.toNat), (127, 64, buf.toNat)])
    { bad := fun s => misaligned buf || (match s.port (fld gate 19 0) with
        | some x => decide (bufLen.toNat < 128 + 8 * (gateCount x.gateOper + gateCount x.gatePend))
        | none => decide (bufLen.toNat < 128))
      doms := fun _ => [4 + fld gate 19 0 / 64]
      act := getGates (fld gate 19 0) buf } s)

/-- GATE_LIST_ABORT. -/
def abortGates (p : Nat) (s : State) : Res :=
  match (s.port p).bind (·.gatePend) with
  | none => .fail .notFound s
  | some l =>
    if l.start < s.time.dev + 2000 * nsUnit then .fail .busy s
    else .ok 0 (s.modPort p (fun y => { y with gatePend := none }))

def execGateListAbort (sub : Sub) (gate : Handle) (s : State) : Host.Outcome State Fault Refusal :=
  .next (runCommand Cat.gateListAbort sub (pack 384 [(31, 0, gate.toNat)])
    { doms := fun _ => [4 + fld gate 19 0 / 64]
      act := abortGates (fld gate 19 0) } s)

end Sys2Proof.Machine
end

