-- ==== Sys2Proof/Machine/Transmit.lean ====
section
/-! DEFINITION. The transmit scheduler and the transmit MAC (R77, R215, R216, R219, R242 to R245, R251, R252, R262, R338, R339):
TRANSMIT_DECISION, FRAME_TRANSMIT and PTP_TX; and the frames of the device's own: AUDIT_EXPORT_FRAME, POSTCARD_FRAME. -/

namespace Sys2Proof.Machine

/-! ### Rewrites of a copy at its start: the transmit stamp is known before the first byte leaves (R245) -/

/-- Bytes replaced at an offset that may be odd, with the checksums at some offsets updated (RFC 1624). -/
def rewriteAt (bs new : List Byte) (off : Nat) (sums : List Nat) : List Byte :=
  let e := off + new.length
  rewriteWords bs (slice bs (off - off % 2) (off % 2) ++ new ++ slice bs e (e % 2)) (off - off % 2) sums

/-- A correctionField, and a sum of it as a 64-bit field. -/
def corrField (bs : List Byte) (o : Nat) : Int := (BitVec.ofNat 64 (beAt bs (o + 8) 8)).toInt
def inSigned64 (v : Int) : Bool := decide (-9223372036854775808 ≤ v) && decide (v ≤ 9223372036854775807)

/-- The checksum that a PTP message's rewrite updates: UDP's, unless it is 0 (R251). -/
def udpSum (f : Frame) (o : Nat) : List Nat := if f.l3Off.isSome && beAt f.bytes (o - 2) 2 != 0 then [o - 2] else []

/-- What a transparent clock adds to a frame's correctionField, in 2^-16 ns: only event messages, between ports with TC_EN
(R251). -/
def tcAdds (s : State) (x : Port) (f : Frame) (o at_ : Nat) : Option Int :=
  match s.port f.port with
  | none => none
  | some y =>
    let residence : Int := ((at_ : Int) - f.stampTb) / 65536
    let typ := beAt f.bytes o 1 % 16
    if f.kind != .received || !bitAt x.ptpCfg 31 || !bitAt y.ptpCfg 31 then none
    else if bitAt y.ptpCfg 30 then (if typ = 0 then some (residence + fld y.ptpDelay 63 32) else none)
    else if typ = 0 || typ = 1 then some residence
    else none

/-- The transparent-clock correction, and the slots it counts. -/
def tcRewrite (s : State) (x : Port) (f : Frame) (at_ : Nat) (bs : List Byte) : List Byte × List Nat :=
  match f.ptpOff with
  | none => (bs, [])
  | some o => match tcAdds s x f o at_ with
    | none => (bs, [])
    | some d =>
      let v := corrField bs o + d
      let w : Int := if 9223372036854775807 < v then 9223372036854775807 else v
      (rewriteAt bs (beBytes 8 (BitVec.ofInt 64 w).toNat) (o + 8) (udpSum f o),
        if 9223372036854775807 < v then [115, 116] else [115])

/-- A one-step value that leaves the range of correctionField is a free value. -/
def oneStepSum (s : State) (v : Int) : Nat := if inSigned64 v then (BitVec.ofInt 64 v).toNat else (s.free 64).toNat

/-- The one-step rewrites of PTP_TX (R252). -/
def ptpRewrite (s : State) (f : Frame) (stamp : TimeVal) (bs : List Byte) : List Byte :=
  match f.kind with
  | .ptpTx _ _ mode o csum ref =>
    let sums := if csum = 0 || bs.length < csum + 6 then [] else [csum]
    if mode = 2 then
      let b := rewriteAt bs (beBytes 6 (fld stamp 127 64) ++ beBytes 4 (fld stamp 63 32)) (o + 34) sums
      rewriteAt b (beBytes 8 (oneStepSum s (corrField b o + fld stamp 31 16))) (o + 8) sums
    else if mode = 3 then
      rewriteAt bs (beBytes 8 (oneStepSum s (corrField bs o + ((ofTime stamp : Int) - ofTime ref) / 65536))) (o + 8) sums
    else bs
  | _ => bs

/-! ### IOAM (R338, Table 13.7; the option's form is RFC 9197's and RFC 9486's, assumption 54) -/

/-- The offset and data length of the first pre-allocated trace option among hop-by-hop options. -/
def findTrace (bs : List Byte) (stop : Nat) : Nat → Nat → Option (Nat × Nat)
  | 0, _ => none
  | n + 1, o =>
    if stop ≤ o then none
    else if beAt bs o 1 = 0 then findTrace bs stop n (o + 1)
    else if beAt bs o 1 = 0x31 && beAt bs (o + 3) 1 = 0 then some (o, beAt bs (o + 1) 1)
    else findTrace bs stop n (o + 2 + beAt bs (o + 1) 1)

/-- The trace option of a frame whose outer L3 header is IPv6 with a hop-by-hop header. -/
def traceOf (f : Frame) (bs : List Byte) : Option (Nat × Nat) :=
  match f.l3Off with
  | none => none
  | some l3 =>
    if isV4 bs l3 || beAt bs (l3 + 6) 1 != 0 then none
    else findTrace bs (l3 + 40 + 8 * (beAt bs (l3 + 41) 1 + 1)) 256 (l3 + 42)

/-- Trace-type bit `i`, bit 0 the most significant of 24. -/
def traceBit (typ i : Nat) : Bool := typ.testBit (23 - i)

/-- The data that one trace-type bit selects. -/
def traceData (s : State) (p : Nat) (f : Frame) (hop at_ i : Nat) : List Byte :=
  let node := fld s.ioam 127 72
  let transit := (at_ - f.stampTb) / nsUnit
  match i with
  | 0 => beBytes 4 (hop * 2 ^ 24 + node % 2 ^ 24)
  | 1 => beBytes 4 (f.port * 65536 + p)
  | 2 => beBytes 4 (fld f.stamp 95 64)
  | 3 => beBytes 4 (fld f.stamp 63 32)
  | 4 => beBytes 4 (if transit < 2 ^ 31 then transit else 2 ^ 31)
  | 5 => beBytes 4 (fld s.ioam 159 128)
  | 6 => beBytes 4 (sat 32 f.voqCells)
  | 8 => beBytes 8 (hop * 2 ^ 56 + node)
  | 9 => beBytes 8 (f.port * 2 ^ 32 + p)
  | 10 => beBytes 8 (fld s.ioam 191 128)
  | 11 => beBytes 4 (sat 32 f.occupancy)
  | _ => beBytes 4 0xFFFFFFFF

/-- The node's data in the order of the trace-type bits. -/
def traceWords (s : State) (p : Nat) (f : Frame) (hop at_ typ : Nat) : List Byte :=
  ((List.range 22).filter (traceBit typ)).flatMap (traceData s p f hop at_)

/-- The trace of a copy: its update, and the slot that is counted. -/
def ioamRewrite (s : State) (p : Nat) (x : Port) (f : Frame) (at_ : Nat) (bs : List Byte) : List Byte × List Nat :=
  if !bitAt s.ioam 0 || f.kind != .received then (bs, [])
  else match traceOf f bs with
    | none => (bs, [])
    | some (o, len) =>
      let ns := beAt bs (o + 4) 2
      let w := beAt bs (o + 6) 2
      let typ := beAt bs (o + 8) 3
      let nodeLen := w / 2048
      let left := w % 128
      let data := traceWords s p f (beAt bs ((f.l3Off.getD 0) + 7) 1) at_ typ
      if !bitAt x.telem 63 || !(ns == 0 || ns == fld s.ioam 47 32 || ns == fld s.ioam 63 48) || decide (256 < o + 2 + len) ||
          decide (len < 10) || traceBit typ 22 || 4 * nodeLen != data.length || decide (len - 10 < 4 * left) then (bs, [125])
      else if left < nodeLen then (patch bs (o + 6) (beBytes 2 (w ||| 0x400)), [126])
      else (patch (patch bs (o + 6) (beBytes 2 (w - nodeLen))) (o + 12 + 4 * (left - nodeLen)) data, [124])

/-- A copy as it leaves: its trace, its correction, its one-step values and its FCS; and the slots that these count. -/
def finalBytes (s : State) (p : Nat) (x : Port) (f : Frame) (at_ : Nat) (stamp : TimeVal) : List Byte × List Nat :=
  let a := ioamRewrite s p x f at_ f.bytes
  let b := tcRewrite s x f at_ a.1
  (sealFcs (ptpRewrite s f stamp b.1), a.2 ++ b.2)

/-! ### The transmit scheduler (R215, R216) -/

/-- `cost` of R216. -/
def costOf (x : Port) (c : Nat) (f : Frame) : BitVec 64 :=
  BitVec.ofInt 64 (((schedLen f : Int) + sfld x.egrSched 5 0) * (65536 / fld (x.egrOf c).reg 15 8 : Nat))

/-- The instant at the transmit ball of a frame that starts now. -/
def ballTime (s : State) (p : Nat) (x : Port) : Nat := s.sliceDev (p / 64) + x.dTx.toNat * tickUnit

/-- The last byte of a class's head frame had not reached its ingress slice at the decision: `arriving` has its bit, and the
frame cuts through (R187). -/
def headArrives (arriving : BitVec 8) (c : Nat) (f : Frame) : Bool := f.cutThrough && bitAt arriving c

/-- The length by which a head frame is judged (R218): its true length where its last byte has arrived, else the length its
headers give, else MAX_FRAME. -/
def judgedLen (x : Port) (arrives : Bool) (f : Frame) : Nat :=
  if !arrives then f.bytes.length else if f.headerLength then f.estimate else x.maxFrame

/-- The head frame of a class fits its gate. -/
def headFits (s : State) (p : Nat) (x : Port) (arriving : BitVec 8) (c : Nat) (f : Frame) : Bool :=
  x.fitsGate c (ballTime s p x) (judgedLen x (headArrives arriving c f) f)

/-- A transmit class whose head's audit record would find no place (R275). -/
def headWaits (s : State) (p : Nat) (f : Frame) : Bool :=
  match f.kind with
  | .auditExport _ _ => false
  | _ => auditWaits s p f.cls.toNat

/-- A class is selectable (R215). -/
def selectable (s : State) (p : Nat) (x : Port) (arriving : BitVec 8) (c : Nat) : Bool :=
  match (x.egrOf c).queue with
  | [] => false
  | e :: _ => !x.paused s.tbNs c && tokensOk s (classShaper p c) && headFits s p x arriving c e.frame && !headWaits s p e.frame

/-- The virtual time of a level. -/
def Port.vOf (x : Port) (lvl : Nat) : BitVec 64 := Map.val x.v lvl 0

/-- F of a class is computed for its head: WEIGHT and LEVEL apply from here. -/
def Port.computeF (x : Port) (c : Nat) : Port :=
  match (x.egrOf c).queue with
  | [] => x
  | e :: _ => x.modEgr c (fun k => { k with f := k.s + costOf x c e.frame, lvl := BitVec.ofNat 2 (fld k.reg 5 4) })

/-- A class that has become selectable: its start is the virtual time where its own lies behind. -/
def Port.wakeClass (x : Port) (c : Nat) : Port :=
  let v := x.vOf (fld (x.egrOf c).reg 5 4)
  (x.modEgr c (fun k => { k with s := if 2 ^ 32 ≤ (k.s - v).toNat then v else k.s })).computeF c

/-- The selectable classes that were not so at the previous evaluation wake (assumption 55). -/
def Port.wake (x : Port) (sel : List Nat) : Port :=
  sel.foldl (fun y c => if (x.egrOf c).wasSelectable then y else y.wakeClass c) x

/-- Of two classes the one with the lesser F, by modular comparison; the higher on a tie. -/
def lesserF (x : Port) (a b : Nat) : Nat :=
  let fa := (x.egrOf a).f
  let fb := (x.egrOf b).f
  if fa = fb then max a b else if (fb - fa).toNat < 2 ^ 63 then a else b

/-- The class that wins: the highest level with a selectable class, and in it the least F. -/
def chooseClass (x : Port) (sel : List Nat) : Option Nat :=
  [3, 2, 1, 0].findSome? (fun l =>
    match sel.filter (fun c => (x.egrOf c).lvl.toNat == l) with
    | [] => none
    | c :: cs => some (cs.foldl (lesserF x) c))

/-- The tags of a class that starts its head frame, whose queue is then `rest`. -/
def Port.startTags (x : Port) (c : Nat) (rest : List EqFrame) : Port :=
  let k := x.egrOf c
  let y : Port := { x with v := Map.ins x.v k.lvl.toNat k.f }
  (y.modEgr c (fun e => { e with s := k.f, queue := rest })).computeF c

/-- What this evaluation leaves for the next: which classes were selectable and still hold a frame (assumption 55). -/
def Port.remember (x : Port) (sel : List Nat) : Port :=
  { x with egr := x.egr.map (fun e => (e.1, { e.2 with wasSelectable := sel.contains e.1 && !e.2.queue.isEmpty })) }

/-- The head of an egress queue is dropped. Of one that has not wholly arrived, the cells on their way carry nothing any more,
and what its VOQ still holds is dropped with it. -/
def State.dropEq (s : State) (p c : Nat) (e : EqFrame) (rest : List EqFrame) : State :=
  let s1 := ((s.modPort p (fun y => y.modEgr c (fun k => { k with queue := rest }))).egrGive (p / 64) e.arrived).lostOwn e.frame
  if !e.short then s1
  else
    let f := e.frame.carried
    (s1.voidCells (fun x => x.inSlice == e.inSlice && x.port == some (BitVec.ofNat 10 p) && x.frame.carried == f)).cutVoq [f]
      (voqIndex e.inSlice.toNat p c)

/-- A head frame that is judged on its true length and that no window of its class can hold is dropped (R219). -/
def State.dropUnfit (arriving : BitVec 8) (p c : Nat) : Nat → State → State
  | 0, s => s
  | n + 1, s =>
    match s.port p with
    | none => s
    | some x => match (x.egrOf c).queue with
      | [] => s
      | e :: rest =>
        if !headArrives arriving c e.frame && x.neverFits c (ballTime s p x) e.frame.bytes.length then
          State.dropUnfit 0 p c n ((s.dropEq p c e rest).countPort p 153 1)
        else s

/-- Bytes of a copy that starts at `t` and that its gate ends at `t_close - 4 ns`: what remains of that time after the preamble
(R77, R219). -/
def gateBytes (x : Port) (c t : Nat) : Nat :=
  match x.closesAt c t with
  | none => 0
  | some u => (u - 4 * nsUnit - t) * x.rate / (8 * nsUnit) - 8

/-- The head frame of a class starts: the shapers are charged, and its egress cells are free as it leaves. What the port's
registers say of the frame is fixed here (R75, R84). -/
def State.startFrame (s : State) (p : Nat) (x : Port) (c pPrime : Nat) (arriving : BitVec 8) (e : EqFrame) (rest : List EqFrame) : State :=
  let f := e.frame
  let add := (x.dTx.toNat + pPrime) * tickUnit
  let at_ := roundQuarter (s.sliceDev (p / 64) + add)
  let atTb := roundQuarter (s.sliceTb (p / 64) + add)
  let stamp := ptpStamp (timeOf at_) x.rate (sfld x.ptpDelay 15 0)
  let b := finalBytes s p x f atTb stamp
  let trunc := if headArrives arriving c f && !x.fitsGate c (ballTime s p x) f.bytes.length then some (gateBytes x c (ballTime s p x)) else none
  let s1 := s.modPort p (fun _ => { x.startTags c rest with
    tx := some { e with frame := { f with bytes := b.1 } }, txClass := BitVec.ofNat 3 c, txAt := at_, txAtTb := atTb
    txQual := stampQual s (p / 64) s.time.tb (adapting s p x), txEqCells := ((x.egrOf c).queue.map (·.arrived)).sum, txTrunc := trunc
    txMax := x.maxFrame, txAttr := x.attr, txMarks := b.2 })
  ((((s1.drawn.egrGive (p / 64) e.arrived).chargeShaper (classShaper p c) (chargeLen x f)).chargeShaper (portShaperIdx p)
    (chargeLen x f)).countPort p (128 + c) 1).countPort p (136 + c) f.bytes.length

/-- A port is free to start a frame. -/
def txFree (s : State) (p : Nat) (x : Port) : Bool :=
  s.mode == .run && x.link.up && x.tx.isNone && bitAt s.time.sliceOk (p / 64) && tokensOk s (portShaperIdx p)

/-- TRANSMIT_DECISION: `procedure choose` of R216. -/
def decide1 (p pPrime : Nat) (arriving : BitVec 8) (s0 : State) : State :=
  match s0.port p with
  | none => s0
  | some x0 =>
    if !txFree s0 p x0 then s0
    else
      let s := foldNats classes (fun a c => State.dropUnfit arriving p c (x0.egrOf c).queue.length a) s0
      match s.port p with
      | none => s
      | some x1 =>
        let sel := classes.filter (selectable s p x1 arriving)
        let x := x1.wake sel
        match chooseClass x sel with
        | none => s.modPort p (fun _ => x.remember sel)
        | some c => match (x.egrOf c).queue with
          | [] => s.modPort p (fun _ => x.remember sel)
          | e :: rest => (s.startFrame p x c pPrime arriving e rest).modPort p (fun y => y.remember sel)

def execTransmitDecision (port : PortNo) (pPrime : Nat) (arriving : BitVec 8) (s : State) : Host.Outcome State Fault Refusal :=
  .next (decide1 port.toNat pPrime arriving s)

/-! ### FRAME_TRANSMIT (R77, R178, R199, R243, R252, R262, R339) -/

/-- A frame in transmission is no longer there. -/
def State.txDone (s : State) (p : Nat) : State := s.modPort p (fun y => { y with tx := none, txMarks := [], txTrunc := none })

/-- A transmit sample (R199). -/
def State.sampleTx (s : State) (p : Nat) (x : Port) (f : Frame) : State :=
  if !bitAt x.sample 31 then s
  else
    let k := countdown (fld x.sample 23 0 + 1) x.txCount
    let s1 := s.modPort p (fun y => { y with txCount := k.1 })
    if !k.2 then s1
    else
      let cap := min (64 * (fld x.sample 30 28 + 1)) f.bytes.length
      let r := s1.offerItem (p / 256) { rxItem f with
        stamp := timeOf x.txAt, qual := x.txQual, capLen := cap, outPort := p, prio := BitVec.ofNat 3 (fld x.sample 27 25)
        dir := true, outcome := 0, kind := 2 } (f.bytes.take cap)
      r.1.countPort p (if r.2 then 108 else 110) 1

def colourCode : Colour → Nat
  | .green => 0 | .yellow => 1 | .red => 2

/-- The postcard record of Table 13.9; what the manual does not state of a frame that was never received is free. -/
def postcardBits (s : State) (p : Nat) (x : Port) (f : Frame) : BitVec 256 :=
  let t := timeOf x.txAt
  let res := if f.kind == .received then sat 32 ((x.txAtTb - f.stampTb) / (nsUnit / 4)) else fld (s.free 64) 31 0
  let cells := if f.kind == .received then sat 17 f.voqCells else fld (s.free 64) 48 32
  pack 256 [(255, 192, f.flowId.toNat), (191, 160, fld t 95 64), (159, 128, fld t 63 32), (127, 96, res), (95, 80, f.version.toNat),
    (79, 63, cells), (62, 48, sat 15 x.txEqCells), (47, 38, f.inPort.toNat), (37, 28, p), (27, 25, x.txClass.toNat),
    (24, 23, colourCode f.colour), (22, 22, f.spilled.toNat), (15, 8, x.txQual.toNat)]

/-- The collector port of a slice's postcards holds a port whose link is up. -/
def pcPort (s : State) (sl : Nat) : Nat := fld (s.slice sl).pcCfg 57 48

/-- A postcard record joins its slice's queue of 4,096, or is lost (R340). -/
def State.pushPostcard (s : State) (sl : Nat) (r : BitVec 256) : State :=
  if !linkUp s (pcPort s sl) || 4096 ≤ (s.slice sl).pcQueue.length then s.countSlice sl 353 1
  else s.modSlice sl (fun y => { y with pcQueue := y.pcQueue ++ [(r, s.tbNs)] })

/-- Kinds of frames that make no postcard (R339). -/
def noPostcard (f : Frame) : Bool :=
  match f.kind with
  | .postcard _ => true
  | .auditExport _ _ => true
  | .received => false
  | .ptpTx _ _ _ _ _ _ => false

/-- A postcard for one copy in N (R339). -/
def State.postcard (s : State) (p : Nat) (x : Port) (f : Frame) : State :=
  if noPostcard f || !bitAt x.telem 62 || !bitAt x.telem (48 + x.txClass.toNat) then s
  else
    let k := countdown (fld x.telem 47 24 + 1) x.pcCount
    let s1 := s.modPort p (fun y => { y with pcCount := k.1 })
    if k.2 then ((s1.drawn.countPort p 127 1).pushPostcard (p / 64) (postcardBits s1 p x f)) else s1

/-- What the device does with a frame of its own that has left whole: PTP_TX completes with its stamp; export slots are
taken. -/
def State.sentOwn (s : State) (p : Nat) (x : Port) (f : Frame) : State :=
  match f.kind with
  | .received => s
  | .postcard _ => s
  | .ptpTx q i _ _ _ _ =>
    (s.countPort p 117 1).finishAt q.toNat i .ok 17 (pack 384
      [(127, 0, (ptpStamp (timeOf x.txAt) x.rate (sfld x.ptpDelay 15 0)).toNat), (135, 128, x.txQual.toNat)])
  | .auditExport c n =>
    (((s.modChain c.toNat (fun y => { y with
      spool := y.spool.map (fun r => if r.portSent == some n then { r with portTaken := true } else r) })).bump (0x30 + c.toNat) 6 1).freeSlots
      c.toNat).agents

/-- A copy that is ended with an error code, at its gate or otherwise (R77, R219). -/
def State.endCopy (s : State) (p : Nat) (x : Port) : State :=
  (if x.txTrunc.isSome then (s.countPort p 152 1) else s).endTx p

/-- The last byte of a cut-through frame: the shapers that were charged its estimate take the difference (R211). -/
def State.trueCharge (s : State) (p : Nat) (x : Port) (f : Frame) : State :=
  if !f.cutThrough then s
  else
    let d : Int := (f.bytes.length : Int) - f.estimate
    (s.chargeShaper (classShaper p x.txClass.toNat) d).chargeShaper (portShaperIdx p) d

/-- The copy in transmission leaves whole. -/
def State.sendWhole (s : State) (p : Nat) (x : Port) (f : Frame) : State :=
  let s1 := x.txMarks.foldl (fun a k => a.countPort p k 1)
    (((s.emit (.frame (BitVec.ofNat 10 p) f.bytes false)).countPort p 20 1).countPort p 19 f.bytes.length)
  ((((s1.auditTx p x f false).sampleTx p x f).postcard p x f).sentOwn p x f).txDone p

/-- FRAME_TRANSMIT: the last byte of the copy in transmission. It waits for cells that have not arrived, unless the copy is
errored. `crossed`: some byte had crossed the ball when an uncorrectable error was found. -/
def transmit (p : Nat) (ecc : BufEcc) (crossed : Bool) (s0 : State) : State :=
  match s0.port p with
  | none => s0
  | some x => match x.tx with
    | none => s0
    | some e =>
      let f := e.frame
      if s0.mode != .run || (!f.errored && e.short) then s0
      else
        let s := (s0.bufFault (p / 64) true ecc).trueCharge p x f
        if badEcc ecc then
          if crossed then ((s.countIn f 105).endCopy p x).txDone p else ((s.countIn f 105).lostOwn f).txDone p
        else if f.errored || x.txTrunc.isSome then (s.endCopy p x).txDone p
        else if x.txMax < f.bytes.length then
          if f.cutThrough then (s.endTx p).txDone p else ((s.countPort p 22 1).lostOwn f).txDone p
        else s.sendWhole p x f

def execFrameTransmit (port : PortNo) (ecc : BufEcc) (crossed : Bool) (s : State) : Host.Outcome State Fault Refusal :=
  .next (transmit port.toNat ecc crossed s)

/-! ### Frames of the device's own -/

/-- A frame that the device makes: it has no ingress port. -/
def ownFrame (kind : FrameKind) (bytes : List Byte) (cls : Nat) : Frame :=
  { kind := kind, bytes := bytes ++ [0, 0, 0, 0], inLen := bytes.length + 4, inPort := 0x3FF, attr := 0, cls := BitVec.ofNat 3 cls, queue := BitVec.ofNat 3 cls
    colour := .green, version := 0, flowId := 0, stamp := 0, stampTb := 0, stampQual := 0, outcome := 0, ptpOff := none, l3Off := none
    estimate := bytes.length + 4, headerLength := false, started := false, cutThrough := false, errored := false, account := .none, cells := 0
    sent := 0, vlan := none, group := none, pend := [], flood := false, voqCells := 0, occupancy := 0, spilled := false, spillAt := []
    gateWaited := false }

/-- The addresses and ethertype of AUD_EXP_HDR or PC_HDR (Table 10.8). -/
def frameHdr (h : BitVec 128) : List Byte := beBytes 6 (fld h 127 80) ++ beBytes 6 (fld h 79 32) ++ beBytes 2 (fld h 31 16)

/-- What PTP_TX refuses (R252). -/
def badPtpTx (port : Handle) (buf : Addr) (len ptpOff csumOff mode : Nat) (ref : TimeVal) (s : State) : Bool :=
  misaligned buf || decide (len < 60) || decide (4 ≤ mode) || ((mode == 2 || mode == 3) && decide (len < ptpOff + 44)) ||
  csumOff % 2 != 0 || badTime ref ||
  (match s.port (fld port 19 0) with
    | some x => decide (x.maxFrame < len + 4)
    | none => false)

/-- PTP_TX: the frame enters its egress queue, and the command waits until its last byte has left. -/
def ptpSend (p : Nat) (len : Nat) (kind : FrameKind) (cls : Nat) (data : HostData) (s : State) : Res :=
  match data with
  | none => .fail .dmaError s
  | some bs =>
    if !linkUp s p then .fail .linkDown s
    else .wait (s.toEq p cls (ownFrame kind (bs.take len) cls) (BitVec.ofNat 4 (p / 64)))

def execPtpTx (sub : Sub) (buf : Addr) (port : Handle) (len : BitVec 16) (ptpOff csumOff : BitVec 10) (cls : ClassNo)
    (mode : BitVec 3) (ref : TimeVal) (data : HostData) (s : State) : Host.Outcome State Fault Refusal :=
  .next (runCommand Cat.ptpTx sub
    (pack 384 [(319, 256, buf.toNat), (255, 224, port.toNat), (223, 208, len.toNat), (207, 198, ptpOff.toNat),
      (197, 188, csumOff.toNat), (187, 185, cls.toNat), (184, 182, mode.toNat), (127, 0, ref.toNat)])
    { bad := badPtpTx port buf len.toNat ptpOff.toNat csumOff.toNat mode.toNat ref
      doms := fun _ => [4 + fld port 19 0 / 64]
      act := ptpSend (fld port 19 0) len.toNat
        (.ptpTx sub.queue sub.index mode ptpOff.toNat csumOff.toNat ref) cls.toNat data } s)

/-- Export frames may be sent: the port exists with its link up, and its MAX_FRAME holds a full batch (R274). -/
def exportReady (s : State) : Bool :=
  match s.port (expPort s) with
  | none => false
  | some x => x.link.up && decide (34 + 64 * expBatch s ≤ x.maxFrame)

/-- A batch is due: BATCH + 1 slots are ready, or 10 µs have passed since the first. -/
def batchDue (s : State) (x : Chain) (l : List ARec) : Bool :=
  decide (expBatch s ≤ ARec.total l) || decide (l.length < x.forPort.length) ||
    s.reached ((l.head?.bind (·.readyNs)).map (· + 10000))

/-- AUDIT_EXPORT_FRAME (R274). -/
def exportFrame (c : Nat) (bad : SpoolErrors) (s : State) : State :=
  let x := s.chain c
  let l := fitting (expBatch s) x.forPort
  if s.mode != .run || !chainThere s c || !portExport s || !exportReady s || l.isEmpty || !batchDue s x l then s
  else
    let seq := (l.head?.map (fun r => r.seq.toNat)).getD 0
    let hdr : BitVec 128 := pack 128 [(7, 0, 1), (9, 8, c), (23, 16, ARec.total l), (63, 32, (l.head?.map (fun r => fld r.bits 127 96)).getD 0),
      (127, 64, seq)]
    let f := ownFrame (.auditExport (BitVec.ofNat 2 c) x.exports)
      (frameHdr s.audit.expHdr ++ leBytes 16 hdr.toNat ++ recordBytes (asRead s l bad)) (fld s.audit.cfg 54 52)
    ((s.modChain c (fun y => { y with
      spool := y.spool.map (fun r => if l.contains r then { r with portSent := some x.exports } else r), exports := x.exports + 1 })).toEq
      (expPort s) (fld s.audit.cfg 54 52) f (BitVec.ofNat 4 (expPort s / 64))).spoolErrors c l bad

def execAuditExportFrame (e : ExportRead) (s : State) : Host.Outcome State Fault Refusal :=
  .next (exportFrame e.chain.toNat e.bad s)

/-- Admission of a postcard frame: the shared pool under the α test (R340); whether it is admitted. -/
def State.admitPostcard (s : State) (sl : Nat) (f : Frame) : State × Bool :=
  let p := pcPort s sl
  let v := voqIndex sl p f.queue.toNat
  let n := f.size
  let k := (s.slice sl).classReg f.queue.toNat
  if (egressBlocked s v p f).isSome || (s.voq v).state != .onDie ||
      alpha16 k .green * sharedFree s sl < 16 * ((s.voq v).sharedCells + n) || sharedFree s sl < n then (s, false)
  else
    let g := { f with account := .pool, cells := n }
    ((s.charge g .pool n true).enqueue v g, true)

/-- POSTCARD_FRAME (R340): 64 records are ready, or 10 µs have passed since the first was made. -/
def postcardFrame (sl : Nat) (s : State) : State :=
  let x := s.slice sl
  let due := decide (64 ≤ x.pcQueue.length) || s.reached (x.pcQueue.head?.map (fun r => r.2 + 10000))
  if s.mode != .run || !bitAt x.pcCfg 63 || x.pcQueue.isEmpty || !due then s
  else
    let l := x.pcQueue.take 64
    let hdr : BitVec 128 := pack 128 [(7, 0, 1), (11, 8, sl), (23, 16, l.length), (127, 64, x.pcSeq.toNat)]
    let f := ownFrame (.postcard (BitVec.ofNat 4 sl)) (frameHdr x.pcHdr ++ leBytes 16 hdr.toNat ++
      l.flatMap (fun r => leBytes 32 r.1.toNat)) (fld x.pcCfg 46 44)
    let s1 := s.modSlice sl (fun y => { y with
      pcQueue := y.pcQueue.drop 64, pcSeq := y.pcSeq + 1 })
    let r := s1.admitPostcard sl f
    if r.2 then r.1.countSlice sl 352 1 else r.1.countSlice sl 353 l.length

def execPostcardFrame (slice : SliceNo) (s : State) : Host.Outcome State Fault Refusal := .next (postcardFrame slice.toNat s)

end Sys2Proof.Machine
end

