-- ==== Sys2Proof/Machine/Telemetry.lean ====
section
/-! DEFINITION. Counters and sampling counters (R329, R335 to R337): CTR_SNAPSHOT, SCTR_SET, SCTR_GET, SCTR_CROSSING and
SCTR_CAPTURE. -/

namespace Sys2Proof.Machine

/-! ### Counter pages (R332, Table 13.1) -/

/-- A slot of the slice page, and of the port page, that holds a counter (Tables 13.2, 13.3). -/
def sliceSlot (k : Nat) : Bool :=
  [(0, 215), (224, 234), (240, 249), (256, 284), (288, 298), (320, 353)].any (fun r => inRange k r.1 r.2)
def portSlot (k : Nat) : Bool :=
  [(0, 40), (48, 59), (64, 72), (80, 89), (96, 117), (120, 153)].any (fun r => inRange k r.1 r.2)

def quadSlot (k : Nat) : Bool := [(0, 3), (8, 13), (16, 21), (33, 52), (64, 69)].any (fun r => inRange k r.1 r.2)

/-- A VOQ is there: its slices are present and its port exists (R320). -/
def voqThere (s : State) (v : Nat) : Bool := sliceThere s (v / 8192) && (s.port (voqPort v)).isSome

/-- A slot of a page holds a counter of an object that exists (Tables 13.1 to 13.3). -/
def slotThere (s : State) (page k : Nat) : Bool :=
  if page = 0 then k == 0
  else if page ≤ 4 then quadThere s (page - 1) && quadSlot k
  else if inRange page 0x10 0x1F then sliceThere s (page - 0x10) && sliceSlot k
  else if inRange page 0x30 0x33 then chainThere s (page - 0x30) && decide (k ≤ 6)
  else if inRange page 0x34 0x37 then quadThere s (page - 0x34) && decide (k ≤ 3)
  else if page = 0x38 then s.fuses.member != 3 && decide (k < 192)
  else if inRange page 0x100 0x200 then
    ((s.queue (page - 0x100)).isSome && (decide (k ≤ 4) || inRange k 8 11)) || ((s.cq (page - 0x100)).isSome && inRange k 16 17)
  else if inRange page 0x400 0x7FF then (s.port (page - 0x400)).isSome && portSlot k
  else if inRange page 0x1000 0x2FFF then sliceThere s ((page - 0x1000) / 512)
  else if inRange page 0x3000 0x37FF then voqThere s (64 * (page - 0x3000) + k / 8) && decide (k % 8 < 6)
  else inRange page 0x3800 0x39FF && sliceThere s ((page - 0x3800) / 32)

/-- What a BAR2 slot reads: 0 where no counter of an existing object is (R332, R334). -/
def slotValue (s : State) (page k : Nat) : BitVec 64 := if slotThere s page k then s.counter page k else 0

/-! ### CTR_SNAPSHOT -/

/-- A page as it is copied: its 512 slots. -/
def pageBytes (s : State) (page : Nat) : List Byte :=
  (List.range 512).flatMap (fun k => leBytes 8 (slotValue s page k).toNat)

def snapshot (buf : Addr) (first n : Nat) (s : State) : Res :=
  .ok (BitVec.ofNat 384 (s.tbNs % 2 ^ 64)) (s.writeBuf buf ((List.range n).flatMap (fun k => pageBytes s (first + k))))

def execCtrSnapshot (sub : Sub) (buf : Addr) (firstPage : BitVec 16) (pages : BitVec 9) (s : State) :
    Host.Outcome State Fault Refusal :=
  .next (runCommand Cat.ctrSnapshot sub (pack 384 [(63, 0, buf.toNat), (79, 64, firstPage.toNat), (88, 80, pages.toNat)])
    { bad := fun _ => misaligned buf || !inRange pages.toNat 1 256 || decide (65536 < firstPage.toNat + pages.toNat)
      act := snapshot buf firstPage.toNat pages.toNat } s)

/-! ### Event numbers (R335, Table 13.4) -/

/-- A defined event number. -/
def eventDefined (e : BitVec 16) : Bool :=
  match fld e 15 14 with
  | 0 => fld e 13 9 == 0 && sliceSlot (fld e 8 0)
  | 1 => portSlot (fld e 7 0)
  | 2 => fld e 13 8 == 0 && portSlot (fld e 7 0)
  | _ => false

/-- A microcoded event (R337). -/
def microcoded (e : BitVec 16) : Bool :=
  if fld e 15 14 = 0 then fld e 8 0 ≤ 215 || inRange (fld e 8 0) 224 249 else inRange (fld e 7 0) 48 89

/-! ### Sampling counters (R336, R337) -/

def Sctr.reset : Sctr := { count := 0, event := 0, queue := 0, en := false, armed := false, thresh := 0 }
def sctrOf (s : State) (i : Nat) : Sctr := Map.val (s.slice (i / 32)).sctr (i % 32) Sctr.reset
def State.setSctr (s : State) (i : Nat) (x : Sctr) : State :=
  s.modSlice (i / 32) (fun y => { y with sctr := Map.ins y.sctr (i % 32) x })

def sctrSetAct (i : Nat) (event queue : BitVec 16) (en : Bool) (thresh : BitVec 64) (s : State) : Res :=
  .ok 0 (s.setSctr i { count := 0, event := event, queue := queue, en := en, armed := false, thresh := thresh })

def execSctrSet (sub : Sub) (sctr : Handle) (event eventQueue : BitVec 16) (en : BitVec 1) (thresh : BitVec 64) (s : State) :
    Host.Outcome State Fault Refusal :=
  .next (runCommand Cat.sctrSet sub
    (pack 384 [(31, 0, sctr.toNat), (47, 32, event.toNat), (63, 48, eventQueue.toNat), (64, 64, en.toNat), (191, 128, thresh.toNat)])
    { bad := fun _ => !eventDefined event || !inRange thresh.toNat 1 (2 ^ 48 - 1)
      doms := fun _ => [4 + fld sctr 19 0 / 32]
      act := sctrSetAct (fld sctr 19 0) event eventQueue (en == 1) thresh } s)

/-- The result of SCTR_GET (Table 12.10). -/
def sctrResult (x : Sctr) : BitVec 384 :=
  pack 384 [(63, 0, x.count.toNat), (79, 64, x.event.toNat), (95, 80, x.queue.toNat), (96, 96, x.en.toNat), (191, 128, x.thresh.toNat)]

def execSctrGet (sub : Sub) (sctr : Handle) (s : State) : Host.Outcome State Fault Refusal :=
  .next (runCommand Cat.sctrGet sub (pack 384 [(31, 0, sctr.toNat)])
    { doms := fun _ => [4 + fld sctr 19 0 / 32]
      act := fun s => .ok (sctrResult (sctrOf s (fld sctr 19 0))) s } s)

/-- SCTR_CROSSING: COUNT has reached THRESH. A capture is armed in CONFIGURE and RUN; one that is armed already makes an
overrun. -/
def crossing (i : Nat) (s : State) : State :=
  let x := sctrOf s i
  if !sliceThere s (i / 32) || !x.en || x.count.toNat < x.thresh.toNat then s
  else
    let y := { x with count := x.count - x.thresh }
    if x.armed then (s.setSctr i y).countSlice (i / 32) (320 + i % 32) 1
    else s.setSctr i { y with armed := s.confRun }

def execSctrCrossing (sctr : BitVec 9) (s : State) : Host.Outcome State Fault Refusal := .next (crossing sctr.toNat s)

/-- The payload of a SAMPLE event (Table 13.6). -/
def samplePayload (s : State) (x : Sctr) (c : Capture) (dropped : Nat) : BitVec 320 :=
  let m := microcoded x.event
  pack 320 [(319, 256, s.tbNs), (255, 192, c.flowId.toNat), (191, 176, c.version.toNat), (175, 160, x.event.toNat),
    (159, 150, c.port.toNat), (143, 128, if m then c.mpc.toNat else 0), (127, 120, c.skid.toNat),
    (119, 116, if m then c.unit_.toNat else 0), (115, 114, if m then c.pipe.toNat else 0), (63, 0, dropped)]

/-- The SAMPLE trap in the engine that the capture names: cause 0x2, counted per store copy (R93, Table 13.3). -/
def State.sampleTrap (s : State) (sl : Nat) (c : Capture) : State :=
  if inRange c.unit_.toNat 1 9 then s.countSlice sl (trapSlot c.pipe.toNat (c.unit_.toNat - 1) 2) 1
  else if c.unit_ = 10 then s.infuserTrap (sl / 4) 2
  else s

/-- An event of the Infuser partition counters, captured in Infuser (Table 13.6). -/
def inInfuserEvent (e : BitVec 16) : Bool := fld e 15 14 == 0 && inRange (fld e 8 0) 224 234

/-- Port slots whose counting point is on receive (Table 13.2). -/
def rxSlot (k : Nat) : Bool := [(0, 18), (32, 33), (38, 40), (48, 107), (109, 109), (112, 114), (120, 120)].any (fun r => inRange k r.1 r.2)

/-- A capture that the event's capture point can make (R337, Table 13.6): at most 24 words or frames after the crossing, in an
engine of the event's unit, of a header that passed there. -/
def captureFits (i : Nat) (x : Sctr) (c : Capture) : Bool :=
  let u := c.unit_.toNat
  decide (c.skid.toNat ≤ 24) &&
  (if !microcoded x.event then u == 0
    else if inInfuserEvent x.event then u == 10
    else inRange u 1 9) &&
  (fld x.event 15 14 == 0 || !rxSlot (fld x.event 7 0) ||
    (if fld x.event 15 14 = 1 then c.port.toNat == 64 * (i / 32) + fld x.event 13 8 else c.port.toNat / 64 == i / 32))

/-- SCTR_CAPTURE: the armed capture records a header and posts its event. That of a microcoded event is a SAMPLE trap (R337). A
capture that its event's capture point cannot make does not come about. -/
def capture (i : Nat) (c : Capture) (s : State) : State :=
  let x := sctrOf s i
  if !x.armed || !s.confRun || !captureFits i x c then s
  else
    let s1 := s.setSctr i { x with armed := false }
    (if microcoded x.event then s1.sampleTrap (i / 32) c else s1).postDropped x.queue.toNat 4 (mkHandle 1 13 i) (samplePayload s x c)

def execSctrCapture (sctr : BitVec 9) (capture_ : Capture) (s : State) : Host.Outcome State Fault Refusal :=
  .next (capture sctr.toNat capture_ s)

end Sys2Proof.Machine
end

