-- ==== Sys2Proof/Machine/Modes.lean ====
section
/-! DEFINITION. Operating modes and their transitions (R32 to R35, R200, R222, R278, R322, R325, R352, R385, R386), MODE_SET, and
what the collector does with a decided message. -/

namespace Sys2Proof.Machine

/-! ### Exit from RUN (R200) -/

/-- A cell is the last of a frame that still counts; a copy in an egress queue is whole. -/
def Cell.isLast (c : Cell) : Bool := !c.frame.bytes.isEmpty && c.idx + 1 == c.frame.size
def EqFrame.whole (e : EqFrame) : Bool := !e.short

/-- Cells on their way between a VOQ and an egress queue. -/
def onTheWay (s : State) : List Cell := s.fabric ++ s.slices.flatMap (fun e => e.2.reorder.flatMap (fun r => r.2.waiting))

/-- Frames that hold ingress cells of a slice. -/
def dieFrames (s : State) (sl : Nat) : List Frame :=
  s.voqs.flatMap (fun e => if voqSlice e.1 = sl then e.2.onDie else []) ++ (s.slice sl).mcq.flatMap (fun e => e.2.frames)

/-- Headers in a partition, with the headers parked behind its fetches. -/
def Partition.headers (x : Partition) : List FlowHdr := x.input ++ x.fetches.flatMap (·.parked)
def inInfuser (s : State) : List FlowHdr := s.quads.flatMap (fun e => e.2.parts.flatMap (fun k => k.2.headers))

/-- Frames in the egress queues of a slice. -/
def eqFrames (s : State) (sl : Nat) : List EqFrame :=
  s.ports.flatMap (fun e => if e.1 / 64 = sl then e.2.egr.flatMap (fun k => k.2.queue) else [])

/-- Frames that an exit from RUN discards, at the slice that holds them: each counts once. -/
def dieCount (s : State) (sl : Nat) : Nat :=
  (dieFrames s sl).length + (onTheWay s).countP (fun c => c.inSlice.toNat == sl && c.isLast) +
  (eqFrames s sl).countP EqFrame.whole + (inInfuser s).countP (fun h => h.frame.slice == sl)

/-- A quadrant without learn requests and without headers in its Infuser (R142). -/
def Quad.emptied (x : Quad) : Quad :=
  { x with learnQ := [], parts := x.parts.map (fun k => (k.1, { k.2 with input := [], fetches := [] })) }

/-- A slice whose buffers hold nothing and on which no cell is on its way. -/
def Slice.emptied (x : Slice) : Slice :=
  { x with egrUsed := 0, mcq := [], reorder := [], seqOut := [], pcQueue := [] }

/-- Every frame in the device is discarded and counted; spill is emptied and its rings are built anew (R192, R200). -/
def State.discardAll (s : State) : State :=
  let gone := (slicesThere s).flatMap (dieFrames s)
  let own := gone ++ s.voqs.flatMap (fun e => e.2.spill) ++ (onTheWay s).map (·.frame) ++
    s.ports.flatMap (fun e => e.2.egr.flatMap (fun k => k.2.queue.map (·.frame)))
  let s1 := own.foldl State.lostOwn (foldNats (slicesThere s) (fun a sl => a.countSlice sl 280 (dieCount s sl)) s)
  let s2 := foldNats (s1.voqs.map (·.1)) (fun a v => a.modVoq v (fun y => { y with onDie := [] }))
    (gone.foldl (fun a f => a.charge f f.account f.cells false) s1)
  let s3 : State := { s2 with
    fabric := []
    ports := s2.ports.map (fun e => (e.1, { e.2 with egr := e.2.egr.map (fun k => (k.1, { k.2 with queue := [], granted := 0 })) }))
    slices := s2.slices.map (fun e => (e.1, e.2.emptied))
    quads := s2.quads.map (fun e => (e.1, e.2.emptied))
    vers := { s2.vers with inFlight := [] } }
  foldNats (quadsThere s) (fun a q => a.buildSpill q) (foldNats (slicesThere s) (fun a sl => a.bufVote sl) s3)

/-- Every frame in transmission ends with an error code (Table 1.7, Table 16.6). -/
def State.endAllTx (s : State) : State := foldNats (s.ports.map (·.1)) (fun a p => a.endTx p) s

/-- A mode change that leaves RUN discards what the device holds; any other leaves the buffers alone. -/
def State.moveMode (s : State) (m : Mode) : State := (if s.mode == .run then s.endAllTx else s).setMode m
def State.afterRun (old : Mode) (s : State) : State := if old == .run then s.discardAll else s

/-- The MODE event of a change between CONFIGURE and RUN, or of an entry into SAFE (R266). -/
def State.modeEvent (s : State) : State :=
  s.auditEvent 0x11 (BitVec.ofNat 64 (modeCode s.mode)) s.qual s.qual s.now

/-! ### CONFIGURE and RUN (R222, Table 16.6) -/

/-- RUN to CONFIGURE. -/
def State.toConfigure (s : State) : State := ((s.moveMode .configure).modeEvent).afterRun s.mode

/-- The scheduler tags of a port at 0. -/
def Port.clearTags (x : Port) : Port :=
  { x with v := [], egr := x.egr.map (fun k => (k.1, { k.2 with s := 0, f := 0, wasSelectable := false, lvl := 0 })) }

/-- Scheduler and meter resets of an entry into RUN (R222). -/
def State.startMeters (s : State) : State :=
  State.modTables { s with ports := s.ports.map (fun e => (e.1, e.2.clearTags)) } (fun t => { t with
    shaper := t.shaper.map (fun e => (e.1, if bitAt e.2.entry 127 then Shaper.start e.2.entry s.tbNs else e.2))
    policer := t.policer.map (fun e => (e.1, Policer.full e.2.entry s.tbNs)) })

/-- CONFIGURE to RUN. The windows, age sweeps and flow sweeps that passed outside RUN are skipped (R140, R142). -/
def State.toRun (s : State) : State :=
  (((s.setMode .run).startMeters.skipWindows).modTables (fun t => { t with ageMark := s.tbNs })).modeEvent

/-! ### SAFE and LOCKOUT (R34, R352, Table 1.7) -/

/-- PPS_OUT falls, and armed sampling captures are discarded. -/
def State.harmless (s : State) : State :=
  { s with
    time := { s.time with ppsOut := false }
    slices := s.slices.map (fun e => (e.1, { e.2 with sctr := e.2.sctr.map (fun k => (k.1, { k.2 with armed := false })) })) }

/-- A domain in HOLDOFF returns to ON (R370). -/
def Dom.heldOn (m : Dom) : Dom := if m.state == .holdoff then { m with state := .on } else m

/-- Entry into SAFE, with the message that caused it. -/
def State.enterSafe (s : State) (cause : BitVec 128) : State :=
  let s1 := (s.moveMode .safe).modeEvent
  let s2 := ((s1.afterRun s.mode).harmless).closeEpoch
  let s3 := s2.safeVersions
  { s3 with
    dev := { s3.dev with loading := none }
    power := { s3.power with doms := s3.power.doms.map (fun e => (e.1, e.2.heldOn)) }
    faults := { s3.faults with safeCause := cause, safeNs := BitVec.ofNat 64 s.tbNs } }

/-- Entry into LOCKOUT, with the message that caused it. The time-base registers change no more (R227), and eye scans stop with
no header and no event (R67). -/
def State.enterLockout (s : State) (cause : BitVec 128) : State :=
  let s1 := ((s.moveMode .lockout).afterRun s.mode).harmless
  { s1 with
    time := { s1.time with writes := [] }
    lanes := s1.lanes.map (fun e => (e.1, { e.2 with scan := none }))
    dev := { s1.dev with loading := none }
    faults := { s1.faults with lockCause := cause, lockNs := BitVec.ofNat 64 s.tbNs } }

/-- What a final class does to the mode (R352). -/
def State.actClass (s : State) (m : BitVec 128) : State :=
  if msgClass m = 4 then (if s.mode == .reset || s.mode == .lockout then s else s.enterLockout m)
  else if msgClass m = 3 then (if s.mode == .boot || s.confRun then s.enterSafe m else s)
  else s

/-! ### MODE_SET (R325) -/

/-- HOST_SAFE_REQUEST of a queue. -/
def safeRequest (s : State) (queue : QueueNo) : BitVec 128 := faultMsg s.tbNs 0x1001 0x007 0 1 queue.toNat

/-- MODE_SET: BAD_MODE outside CONFIGURE and RUN, and for a TARGET of RUN whose preconditions fail. -/
def modeSetAct (queue : QueueNo) (target : Nat) (s : State) : Res :=
  let done := BitVec.ofNat 384 target
  if !s.confRun then .fail .badMode s
  else if target = modeCode s.mode then .ok done s
  else if target = 2 then .ok done s.toConfigure
  else if target = 3 then (if s.dev.domSet && s.time.set then .ok done s.toRun else .fail .badMode s)
  else .ok done ((s.raise 0x1001 0x007 0 1 queue.toNat).enterSafe (safeRequest s queue))

def execModeSet (sub : Sub) (target : BitVec 3) (s : State) : Host.Outcome State Fault Refusal :=
  .next (runCommand Cat.modeSet sub (pack 384 [(2, 0, target.toNat)])
    { bad := fun _ => !inRange target.toNat 2 4, act := modeSetAct sub.queue target.toNat } s)

/-! ### The collector's decision (R346 to R352) -/

/-- The generation that a message's object holds now (R319, R412). -/
def currentGen (s : State) (m : BitVec 128) : Nat :=
  let k := msgKind m
  let a := fld m 95 48
  if k = 0x040 ∨ k = 0x041 then ((boundPort s (a % 1024)).map (fun p => (s.portGenOf p).toNat)).getD 0
  else if k = 0x042 ∨ k = 0x043 ∨ k = 0x082 then (s.portGenOf (a % 1024)).toNat
  else if k = 0x005 then
    (if a / 65536 % 16 = 0 then s.queueGenOf (a % 512) else s.cqGenOf (a % 512)).toNat
  else if k = 0x006 then (s.queueGenOf (a / 65536 % 512)).toNat
  else 1

/-- A unit is retired once. -/
def State.retireUnit (s : State) (source : BitVec 16) (i : Nat) (f : State → State) : State :=
  if s.dev.retired.contains (source, i) then s
  else f { s with dev := { s.dev with retired := s.dev.retired ++ [(source, i)] } }

/-- A buffer bank is retired: 0x40 to 0x7F ingress, 0x80 to 0x8F egress (Table 14.2). -/
def State.retireBank (s : State) (source : BitVec 16) : State :=
  let sl := source.toNat / 256 % 16
  s.retireUnit source 0 (fun s => (s.modSlice sl (fun x =>
    if inRange (source.toNat % 256) 0x40 0x7F then { x with inLeaving := x.inLeaving + 1 }
    else { x with egLeaving := x.egLeaving + 1 })).bufVote sl)

/-- A spill cell is retired and added to LOST. -/
def State.retireSpill (s : State) (source : BitVec 16) (cell : Nat) : State :=
  s.retireUnit source cell (fun s => s.modQuad (source.toNat / 256 % 16) (fun x => { x with
    spillRetired := x.spillRetired ++ [cell], ring := Runs.without cell x.ring, caddy := Runs.without cell x.caddy
    lost := min (x.lost + 1) 0x7FFFFF }))

/-- The retirement of a promoted message (Table 14.4). -/
def State.retire (s : State) (m : BitVec 128) : State :=
  let a := fld m 95 48
  let source := BitVec.ofNat 16 (msgSource m)
  if msgKind m = 0x041 then s.retireLane (a % 1024)
  else if msgKind m = 0x063 then (if a / 2 ^ 40 % 256 = 1 then s.retireUnit source (a % 2 ^ 32) id else s)
  else if msgKind m = 0x080 then s.retireBank source
  else if msgKind m = 0x084 then s.retireSpill source (a % 2 ^ 26)
  else s

/-- The cause record of a MODE_SET to SAFE takes its message's final form. -/
def State.recordRequest (s : State) (sent final : BitVec 128) : State :=
  if s.faults.safeCause = sent ∧ msgKind sent = 0x007 then { s with faults := { s.faults with safeCause := final } } else s

/-- A message is judged, logged, posted and acted on. -/
def State.collect (s : State) (sent : BitVec 128) : State :=
  let r := s.judge sent
  let s1 := if r.2.2 && currentGen s sent == msgGen sent then r.1.retire r.2.1 else r.1
  ((s1.recordRequest sent r.2.1).actClass r.2.1).postFault r.2.1

/-- Kinds whose GEN is that of a port, queue or ring (R412). -/
def genKind (k : Nat) : Bool := [0x040, 0x041, 0x042, 0x043, 0x082, 0x005, 0x006].contains k

/-- A message that a present unit may send of its own accord (Tables 14.1 to 14.4, 14.6, R345, R412): its kind with a class that
the kind is raised as, from the kind's own source, with an address and a generation of the kind's form. -/
def sendable (s : State) (m : BitVec 128) : Bool :=
  !sourceAbsent s (msgSource m) && fld m 26 16 == 0 &&
  (match kindRow (msgKind m) with
    | some r => r.2.1.contains (msgClass m)
    | none => false) &&
  addrFits (msgKind m) (fld m 95 48) && sourceFits (msgKind m) (msgSource m) (fld m 95 48) &&
  (if genKind (msgKind m) then msgGen m != 0 else msgGen m == 1)

/-- FAULT_MESSAGE: the next of those that units have sent, in the order of R346; or one that its unit detects now, with no other
row of the table. -/
def takeMessage (msg : Option (BitVec 128)) (s : State) : State :=
  if s.mode == .reset then s
  else
    let take := fun (m : BitVec 128) => State.collect { s with faults := { s.faults with transit := s.faults.transit.erase m } } m
    match msg, s.nextMessage with
    | none, none => s
    | none, some m => take m
    | some m, next =>
      if next = some m then take m
      else if !s.faults.transit.contains m && sendable s m then s.collect m
      else s

def execFaultMessage (msg : Option (BitVec 128)) (s : State) : Host.Outcome State Fault Refusal := .next (takeMessage msg s)

end Sys2Proof.Machine
end

