-- ==== Sys2Proof/Machine/Retain.lean ====
section
/-! DEFINITION. The end of a domain's wake (R363, R365 to R367): failed retention and what it clears, the fault of each block, the
wake record, and what waited for the domain. -/

namespace Sys2Proof.Machine

/-! ### What a failed bank clears (R366, Table 15.5) -/

/-- Entries of a range take their reset values. -/
def clearRange {V : Type} (t : Tbl V) (lo hi : Nat) : Tbl V := t.filter (fun e => !inRange e.1 lo hi)

/-- Entries of a range, within those that lie in a unit. -/
def clearWithin {V : Type} (t : Tbl V) (mine : Nat → Bool) (lo hi : Nat) : Tbl V :=
  t.filter (fun e => !(mine e.1 && inRange e.1 lo hi))

/-- Table entries of a slice's failed banks: content bits 0 and 5 to 10. -/
def TableState.loseBank (t : TableState) (sl : Nat) (b : ScrubbedBank) : TableState :=
  let lo := b.first
  let hi := b.last
  let on := fun (k : Nat) => bitAt b.content k
  { t with
    portVlan := if on 0 then clearWithin t.portVlan (fun i => i / 64 == sl) lo hi else t.portVlan
    mcEgress := if on 5 then clearRange t.mcEgress (65536 * sl + lo) (65536 * sl + min hi 65535) else t.mcEgress
    policer := if on 6 then clearWithin t.policer (fun i => i / 32768 == sl) lo hi else t.policer
    shaper := if on 7 then clearWithin t.shaper (fun i => (shaperSlices i).head? == some sl) lo hi else t.shaper
    acl := if on 8 || on 9 || on 10 then clearRange t.acl (16384 * sl + lo) (16384 * sl + min hi 16383) else t.acl }

/-- A port's registers at their reset values; TYPE is restored. -/
def Port.resetRegs (x : Port) : Port :=
  let y := Port.create x.type 16
  { x with
    cfg := y.cfg, guard := y.guard, attr := y.attr, parse := y.parse, punt := y.punt, flow := y.flow, egrCfg := y.egrCfg
    sample := y.sample, egrSched := y.egrSched, ptpCfg := y.ptpCfg, ptpDelay := y.ptpDelay, telem := y.telem, polSel := []
    ipc := x.ipc.map (fun e => (e.1, { e.2 with reg := (Ipc.create 16).reg }))
    egr := x.egr.map (fun e => (e.1, { e.2 with reg := EgrClass.reset.reg })) }

/-- A slice's own registers at their reset values. -/
def Slice.resetRegs (x : Slice) : Slice :=
  { x with
    hdrmPool := Slice.reset.hdrmPool, bufMc := Slice.reset.bufMc, bufClass := [], pcCfg := Slice.reset.pcCfg
    pcHdr := Slice.reset.pcHdr, sctr := [] }

/-- The latches of a slice's registers hold their reset values: nothing latched (R31). -/
def State.unlatchSlice (s : State) (sl : Nat) : State :=
  { s with host := { s.host with latch := s.host.latch.filter (fun e => e.1 / 0x80000 ≠ 16 + sl) } }

/-- Register groups of a slice: 0 to 63 its local ports', 64 its own. -/
def State.loseRegs (s : State) (sl lo hi : Nat) : State :=
  let s1 : State := { s with
    ports := s.ports.map (fun e => (e.1, if e.1 / 64 = sl && inRange (e.1 % 64) lo hi then e.2.resetRegs else e.2)) }
  (if inRange 64 lo hi then s1.modSlice sl Slice.resetRegs else s1).unlatchSlice sl

/-- Lane settings of a range of lanes at the reset values of Table 2.6. -/
def Lane.resetCfg (x : Lane) : Lane :=
  { x with rxInv := false, txInv := false, txCtl := false, cPre := 0, cMain := 0, cPost := 0, timeout := 0, preset := 0
           eq := {}, trained := false, retained := false }

/-- What one block's failed banks held is cleared; the device restores control stores and firmware itself. -/
def State.loseBanks (s : State) (d : Nat) (b : ScrubbedBank) : State :=
  if inRange d 4 19 then
    let s1 := s.modTables (fun t => t.loseBank (d - 4) b)
    if bitAt b.content 13 then (s1.loseRegs (d - 4) b.first b.last).agents else s1
  else if inRange d 20 35 then
    if bitAt b.content 17 then
      { s with lanes := s.lanes.map (fun e =>
          (e.1, if e.1 / 64 = d - 20 && inRange e.1 b.first b.last then e.2.resetCfg else e.2)) }
    else s
  else if inRange d 44 47 then
    s.modTables (fun t => { t with
      flows := if bitAt b.content 14 then
          t.flows.map (fun e => (e.1, if locQuad e.1 = d - 44 && inRange e.1 b.first b.last then { e.2 with reachable := false } else e.2))
        else t.flows
      profiles := if bitAt b.content 16 then clearRange t.profiles b.first b.last else t.profiles })
  else s

/-! ### The faults (R366, R412) -/

/-- A source block lies in a domain that is scrubbed (Tables 14.2, 15.1). -/
def blockIn (d : Nat) (b : ScrubbedBank) : Bool :=
  let src := b.source.toNat
  if d = 3 then src == 0x1005
  else if inRange d 4 19 then src / 256 == 0x30 + (d - 4)
  else if inRange d 20 35 then
    src / 256 == 0x40 + (d - 20) / 2 && (src % 256 == 0x80 || (inRange (src % 256) 0 127 && src % 256 / 64 == (d - 20) % 2))
  else if inRange d 44 47 then src / 256 == 0x20 + (d - 44) && inRange (src % 256) 0x10 0x15
  else false

/-- A bank has failed retention: its canary differs from the one written at the drop, or one of its words is bad (R366). -/
def bankFailed (written : BitVec 32 × BitVec 32) (b : ScrubbedBank) : Bool := b.bad || b.canary != written

/-- The banks of a domain that failed. An HBM stack has no canary and no scrub (R364). -/
def failedBanks (s : State) (d : Nat) (banks : List ScrubbedBank) : List ScrubbedBank :=
  banks.filter (fun b => blockIn d b && bankFailed (Config.canaryWords (s.dom d).canary) b)

/-- The failed blocks in SOURCE order: how many banks of each, and the union of their content bits. -/
def failedBlocks (l : List ScrubbedBank) : Tbl (Nat × BitVec 32) :=
  l.foldl (fun t b =>
    let x := Map.val t b.source.toNat (0, 0)
    Map.ins t b.source.toNat (x.1 + 1, x.2 ||| BitVec.ofNat 32 (b.content.toNat % 2 ^ 20))) []

/-- GEN of a message from a block: that of the bound port for a lane, else 0x01. -/
def blockGen (s : State) (src : Nat) : Nat :=
  if src / 4096 = 4 ∧ src % 256 < 128 then
    ((boundPort s (128 * (src / 256 % 16) + src % 256)).map (fun p => (s.portGenOf p).toNat)).getD 1
  else 1

/-- RETENTION_FAIL of a block. -/
def State.raiseRetention (s : State) (d : Nat) (e : Nat × Nat × BitVec 32) : State :=
  s.raise e.1 0x0A1 2 (blockGen s e.1) (d * 2 ^ 42 + sat 10 e.2.1 * 2 ^ 32 + e.2.2.toNat)

/-! ### DOMAIN_WAKE_DONE -/

/-- The union of the content bits of some blocks. -/
def contentMask (l : Tbl (Nat × BitVec 32)) : BitVec 32 := l.foldl (fun a e => a ||| e.2.2) 0

/-- A domain reports ON, and the wake is recorded (R367). -/
def State.reportOn (s : State) (d : Nat) (blocks : Nat) (mask : BitVec 32) : State :=
  s.modDom d (fun m => { m.record s.tbNs blocks mask with state := .on })

/-- What waited for a domain goes on: a commit (R116), PWR_VOTE takes, the lanes of enabled ports (R49), a spill ring (R192). -/
def State.afterWake (s : State) (d : Nat) : State :=
  let s1 := s.finishTakes d
  let s2 := if inRange d 4 19 then s1.build
    else if inRange d 20 35 then foldNats ((s1.ports.map (·.1)).filter (fun p => p / 64 = d - 20)) (fun a p => a.bringUp p) s1
    else if inRange d 40 43 then s1.buildSpill (d - 40)
    else s1
  s2.settle d

/-- DOMAIN_WAKE_DONE. An Infuser wakes only once its HBM is ON (R365). Failures found in BOOT raise nothing (R370). A single-bit error
that the scrub repairs is reported by its block as in service, in a FAULT_MESSAGE. -/
def wakeDone (d : Nat) (banks : List ScrubbedBank) (s : State) : State :=
  if !s.domLive || !domThere s d || (s.dom d).state != .waking || (inRange d 44 47 && !s.domOn (d - 4)) then s
  else
    let l := failedBanks s d banks
    let s1 := l.foldl (fun a b => a.loseBanks d b) s
    if s.mode == .boot then (s1.reportOn d 0 0).afterWake d
    else
      let t := failedBlocks l
      ((t.foldl (fun a e => a.raiseRetention d e) s1).reportOn d t.length (contentMask t)).afterWake d

def execDomainWakeDone (dom : BitVec 6) (banks : List ScrubbedBank) (s : State) : Host.Outcome State Fault Refusal :=
  if 48 ≤ dom.toNat then .fault .noSuchUnit else .next (wakeDone dom.toNat banks s)

end Sys2Proof.Machine
end

