-- ==== Sys2Proof/Machine/Resets.lean ====
section
/-! DEFINITION. Resets and pins (R33, R287, R311, R369 to R373, R386, R394, R403, R407, R21): the reset sources, what each keeps, the
host-interface reset, references, TAP, THERMTRIP_N and die-to-die links. -/

namespace Sys2Proof.Machine

/-! ### Reset of the host interface (R287) -/

/-- The queues' commands in execution go on without them. -/
def State.orphanAll (s : State) : State :=
  let l : List Orphan := s.host.queues.flatMap (fun q => q.2.inExec.map (fun e =>
    { queue := BitVec.ofNat 9 q.1, client := queueHandle s q.1, exec := e }))
  l.foldl (fun a o => a.disown o.queue o.exec.index) { s with host := { s.host with orphans := s.host.orphans ++ l } }

/-- Queue 0 with EN = 0 and nothing in execution: what waited for its event ring is discarded. A halted one stays halted
(Table 11.8). -/
def Queue.idle (q : Queue) : Queue :=
  { q with
    state := if q.state == .halted then .halted else .stopped, fetched := [], windowed := false, failedRead := .none, inExec := []
    events := q.events.map (fun r => { r with held := [], dropped := [], irq := { r.irq with owed := false } }) }

/-- Completion ring 0 without the completions and stall records that wait. -/
def CRing.idle (r : CRing) : CRing :=
  { r with finished := [], held := [], stalledAt := none, oweStall := none, oweResume := none, irq := { r.irq with owed := false } }

/-- Generations of the objects of a table that a reset destroys, the spared ones excepted. -/
def bumpGens {V : Type} (t : Tbl V) (gen : Tbl (BitVec 8)) (spare : Nat → Bool) : Tbl (BitVec 8) :=
  t.foldl (fun g e => if spare e.1 then g else Map.ins g e.1 (nextGen (Map.val g e.1 1))) gen

/-- Every queue and ring but queue 0 and ring 0 is gone, with its generation incremented and its counters; queue 0 stands
with EN = 0. -/
def State.dropRings (s : State) : State :=
  let s1 := foldNats ((s.host.queues.map (·.1)).filter (· ≠ 0)) State.clearQueueCounters s
  let s2 := foldNats ((s.host.cqs.map (·.1)).filter (· ≠ 0)) (fun a n => a.clearSlots (0x100 + n) 16 17) s1
  { s2 with host := { s.host with
    queues := (s.host.queues.filter (fun e => e.1 = 0)).map (fun e => (e.1, e.2.idle))
    cqs := (s.host.cqs.filter (fun e => e.1 = 0)).map (fun e => (e.1, e.2.idle))
    queueGen := bumpGens s.host.queues s.host.queueGen (· == 0), cqGen := bumpGens s.host.cqs s.host.cqGen (· == 0)
    adminRunning := false, adminCtl := setFld s.host.adminCtl 63 63 0 } }

/-- EN of every Strainer cleared and its banks emptied. -/
def State.stopStrainers (s : State) : State :=
  foldNats (s.strainers.map (·.1)) (fun a q => (a.flushBanks q).modStrainer q (fun r => { r with cfg := setFld r.cfg 63 63 0 })) s

/-- The host interface is reset, and nothing else. -/
def State.resetHostIf (s : State) (cause : Nat) : State :=
  let s1 := ((s.orphanAll).dropRings).stopStrainers
  let s2 : State := { s1 with
    host := { s1.host with pageUser := [], msixTable := [], msixMask := 0, msixPend := 0 }
    audit := { s1.audit with chains := s1.audit.chains.map (fun c => (c.1, { c.2 with posted := [], buf := none })) } }
  s2.raise 0x1002 0x004 0 1 cause

/-- HOST_IF_RESET. -/
def hostReset (cause : HostResetCause) (s : State) : State :=
  if s.mode == .reset || s.mode == .lockout then s
  else s.resetHostIf (match cause with
    | .flr => 0
    | .hotReset => 1
    | .linkLoss => 2)

def execHostIfReset (cause : HostResetCause) (s : State) : Host.Outcome State Fault Refusal := .next (hostReset cause s)

/-! ### Entry into BOOT (R359, R370, R371, R375) -/

/-- The BOOT vote, held on every domain present that can be off. -/
def bootVote : Vote := { kind := 8, client := devHandle }
def bootDoms (s : State) : List Nat := ((List.range 48).filter (domThere s)).filter (3 ≤ ·)

/-- BOOT starts at a step: the hub and PCIe domains are on, every present domain is voted on, queue 0 exists. -/
def State.enterBoot (s : State) (step : BitVec 4) : State :=
  let s1 := s.setMode .boot
  let s2 : State := { s1 with
    dev := { s1.dev with bootStep := step }
    host := { s1.host with queues := [(0, Queue.admin)], cqs := [(0, CRing.admin)] } }
  let s3 := foldNats [1, 2] (fun a d => a.modDom d (fun m => { m with state := .on })) s2
  (foldNats (bootDoms s3) (fun a d => a.takeVote d bootVote) s3).agents

/-! ### Warm reset (R373) -/

/-- What a chain keeps: its unexported slots. -/
def Chain.warm (x : Chain) : Chain :=
  { Chain.reset with
    full := x.full, resHold := x.resHold, resSys := x.resSys, spool := x.spool.map (fun r => { r with portSent := none }) }

/-- What the time base keeps (R227, R256, R373). -/
def TimeState.warm (t : TimeState) : TimeState :=
  { t with sliceOk := 0, skews := [], writes := [], ppsHeld := none, ppsOut := false }

/-- What the collector keeps (R354). -/
def FaultState.warm (f : FaultState) : FaultState :=
  { f with transit := [], unack := [], implicit := [], waiting := [], posted := [], windows := [], settings := [], latch := none }

/-- A domain keeps its state and its wake record; it has no vote any more. -/
def Dom.warm (m : Dom) : Dom := { m with votes := [], state := if m.state == .holdoff then .on else m.state }

/-- What the power controller keeps: domains, SUP_STATUS, PWR_RESET_CAUSE. -/
def PowerState.warm (x : PowerState) : PowerState :=
  { x with
    doms := x.doms.map (fun e => (e.1, e.2.warm)), holdoffUs := PowerState.reset.holdoffUs
    rails := x.rails.map (fun e => (e.1, { e.2 with warnPm := Rail.reset.warnPm })) }

/-- Pins, identity, flash and what was measured outside BOOT. -/
def DevState.warm (x : DevState) (src : BitVec 4) : DevState :=
  { DevState.reset with
    mode := x.mode, prevMode := x.prevMode, domainId := x.domainId, deviceId := x.deviceId, domSet := x.domSet, resetSrc := src
    resetN := x.resetN, perstN := x.perstN, railsGood := x.railsGood, refclk := x.refclk, pcieUp := x.pcieUp
    thermtrip := x.thermtrip, tapIr := x.tapIr, flashA := x.flashA, flashB := x.flashB, hostKey := x.hostKey, flowKey := x.flowKey
    nextCursor := x.nextCursor, cursorEpoch := x.nextCursor }

/-- The BAR2 counters that a warm reset keeps: those of every object that is not destroyed (R331, R334, R341), and FLOW_EVENT_DROP
and TIME_EVENT_DROP, which only power-on reset clears (R175, R258). -/
def warmCounters (t : Tbl (BitVec 64)) : Tbl (BitVec 64) :=
  t.filter (fun e => (!inRange (e.1 / 512) 0x101 0x200 || inRange (e.1 % 512) 9 10) && !inRange (e.1 / 512) 0x400 0x7FF)

/-- Warm reset from BOOT, CONFIGURE, RUN or SAFE, by a source of Table 16.1: what R373 lists is kept. -/
def State.warmReset (s0 : State) (src : BitVec 4) : State :=
  if s0.mode == .reset || s0.mode == .lockout then s0
  else
    let s := if s0.mode == .run then s0.endAllTx else s0
    let t : State := { State.reset with
      pending := s.pending, draws := s.draws, out := s.out, fuses := s.fuses
      dev := s.dev.warm src, time := s.time.warm, faults := s.faults.warm, power := s.power.warm
      host := { HostState.reset with
        queueGen := bumpGens s.host.queues s.host.queueGen (· == 0), cqGen := bumpGens s.host.cqs s.host.cqGen (· == 0) }
      portGen := bumpGens s.ports s.portGen (fun _ => false)
      ctr := warmCounters s.ctr
      quads := s.quads.map (fun e => (e.1, { Quad.reset with flowSeq := e.2.flowSeq, pendPeak := e.2.pendPeak }))
      vers := { VerState.reset with nextVer := s.vers.nextVer, verGen := s.vers.verGen }
      audit := { AuditState.reset with
        epochs := s.audit.epochs, awaiting := s.audit.awaiting, chains := s.audit.chains.map (fun c => (c.1, c.2.warm)) } }
    t.enterBoot (if s.dev.resetN then 2 else 0)

/-- RST_CTL (R386). -/
def writeRstCtl (v : BitVec 32) (s : State) : State :=
  if !s.hostUp then s
  else if fld v 31 16 = 0xB007 ∧ bitAt v 0 = true then s.warmReset 5
  else s.regReject 0x1001 0x140

def execRstCtlWrite (value : BitVec 32) (s : State) : Host.Outcome State Fault Refusal := .next (writeRstCtl value s)

/-! ### Power-on reset (R33, R256, R369, R371) -/

/-- A power-on reset enters RESET: only fuses, flash, pins and the model's own record remain. -/
def State.powerReset (s : State) (src : BitVec 4) (valid : Bool) (rail : BitVec 3) : State :=
  { State.reset with
    pending := s.pending, draws := s.draws, out := s.out, fuses := s.fuses
    dev := { DevState.reset with
      resetSrc := src, resetN := s.dev.resetN, perstN := s.dev.perstN, refclk := s.dev.refclk, flashA := s.dev.flashA
      flashB := s.dev.flashB, nextCursor := s.dev.nextCursor, cursorEpoch := s.dev.nextCursor }
    power := { PowerState.reset with causeValid := valid, causeRail := rail } }

/-- POWER_ON: VDD_AON has risen. -/
def execPowerOn (s : State) : Host.Outcome State Fault Refusal := .next (s.powerReset 1 false 0)

/-- SUPPLY_RESET: a rail is more than 100 per mille below nominal. PWR_RESET_CAUSE survives unless the rail is VDD_AON, and so
does THERMTRIP_N (R369, R407). -/
def supplyReset (rail : BitVec 3) (s : State) : State :=
  if rail = 0 then s.powerReset 2 false 0
  else
    let t := s.powerReset 2 true rail
    { t with dev := { t.dev with thermtrip := s.dev.thermtrip } }

def execSupplyReset (rail : BitVec 3) (s : State) : Host.Outcome State Fault Refusal := .next (supplyReset rail s)

/-- The device may leave RESET (R372). -/
def mayLeaveReset (s : State) : Bool := s.mode == .reset && s.dev.railsGood && s.dev.resetN && bitAt s.dev.refclk 8

/-- RESET_EXIT: every rail has stayed above its reset level for 10 ms. RESET_N low or no REFCLK still holds the device. -/
def leaveReset (s : State) : State :=
  if s.mode == .reset then
    let s1 : State := { s with dev := { s.dev with railsGood := true } }
    if mayLeaveReset s1 then s1.enterBoot 1 else s1
  else s

def execResetExit (s : State) : Host.Outcome State Fault Refusal := .next (leaveReset s)

/-! ### RESET_N and PERST# (R372, Table 16.1) -/

/-- An instruction that the TAP takes only while RESET_N is low (Table 17.8). -/
def restrictedIr (ir : BitVec 8) : Bool := inRange ir.toNat 3 7

/-- RESET_N falls. -/
def resetLow (s : State) : State :=
  if !s.dev.resetN then s
  else State.warmReset { s with dev := { s.dev with resetN := false } } 3

/-- RESET_N rises: a held BOOT goes on at step 0x2, RESET may be left, and a restricted TAP instruction ends. -/
def resetRise (s : State) : State :=
  let s1 : State := { s with dev := { s.dev with
    resetN := true, tapIr := if restrictedIr s.dev.tapIr then 0x01 else s.dev.tapIr } }
  if mayLeaveReset s1 then s1.enterBoot 1
  else if s1.mode == .boot && s1.dev.bootStep == 0 then { s1 with dev := { s1.dev with bootStep := 2 } }
  else s1

def execResetNLow (s : State) : Host.Outcome State Fault Refusal := .next (resetLow s)
def execResetNRise (s : State) : Host.Outcome State Fault Refusal := .next (resetRise s)

/-- PERST# falls: a warm reset in CONFIGURE, RUN and SAFE; in BOOT the host interface is reset; ignored in LOCKOUT. -/
def perstLow (s : State) : State :=
  if !s.dev.perstN then s
  else
    let s1 : State := { s with dev := { s.dev with perstN := false } }
    let s2 : State := { s1 with dev := { s1.dev with pcieUp := false } }
    if s.mode == .lockout then s1
    else if s.mode == .reset then s2
    else if s.mode == .boot then s2.resetHostIf 2
    else s2.warmReset 4

/-- PERST# rises: the endpoint answers once BOOT has reached step 0x2 (R375). -/
def perstHigh (s : State) : State :=
  { s with dev := { s.dev with perstN := true, pcieUp := s.dev.pcieUp || (s.mode != .reset && !(s.mode == .boot && s.dev.bootStep.toNat < 2)) } }

def execPerstAssert (s : State) : Host.Outcome State Fault Refusal := .next (perstLow s)
def execPerstDeassert (s : State) : Host.Outcome State Fault Refusal := .next (perstHigh s)

/-! ### References, TAP and THERMTRIP_N (R394, R403, R407) -/

/-- Ports on the lanes of a chiplet. -/
def chipletPorts (s : State) (g : Nat) : List Nat := (s.ports.map (·.1)).filter (fun p => p / 128 == g)

/-- REFCLK_LOSS: the chiplet holds its lanes in LISTEN. -/
def refclkLost (g : Nat) (s : State) : State :=
  let s1 : State := { s with dev := { s.dev with refclk := setFld s.dev.refclk g g 0 } }
  if 8 < g then s
  else if g = 8 ∨ s.mode == .reset ∨ s.mode == .lockout then s1
  else foldNats (chipletPorts s g) (fun a p =>
    if (a.port p).any (·.enabled) && a.domOn (20 + p / 64) then a.listen p else a) s1

/-- REFCLK_RETURN: the lanes are released, and training follows. REFCLK_P[8] is the hub's: RESET may be left (R372). -/
def refclkBack (g : Nat) (s : State) : State :=
  let s1 : State := { s with dev := { s.dev with refclk := setFld s.dev.refclk g g 1 } }
  if 8 < g then s
  else if mayLeaveReset s1 then s1.enterBoot 1
  else if g = 8 ∨ s.mode == .reset ∨ s.mode == .lockout then s1
  else foldNats (chipletPorts s g) (fun a p => a.tryTrain p) s1

def execRefclkLoss (g : BitVec 4) (s : State) : Host.Outcome State Fault Refusal := .next (refclkLost g.toNat s)
def execRefclkReturn (g : BitVec 4) (s : State) : Host.Outcome State Fault Refusal := .next (refclkBack g.toNat s)

/-- THERMTRIP: THERMTRIP_N asserts in every mode and stays asserted until VDD_AON is removed. -/
def execThermtrip (_sensor : BitVec 4) (s : State) : Host.Outcome State Fault Refusal :=
  .next { s with dev := { s.dev with thermtrip := true } }

/-- The instruction that takes effect: BYPASS for a code not listed, and for a restricted one while RESET_N is high. -/
def tapTakes (resetN : Bool) (ir : BitVec 8) : BitVec 8 :=
  if ir = 0x01 ∨ ir = 0x02 then ir else if restrictedIr ir ∧ resetN = false then ir else 0xFF

def execTapInstruction (ir : BitVec 8) (s : State) : Host.Outcome State Fault Refusal :=
  .next { s with dev := { s.dev with tapIr := tapTakes s.dev.resetN ir } }

/-! ### Die-to-die links (R21) -/

/-- The source of a link's messages (Table 14.6), and whether its end is on the member. -/
def d2dSource : D2dLink → Nat
  | .core q a => 0x2020 + 0x100 * q.toNat + a.toNat
  | .chiplet c => 0x4081 + 0x100 * c.toNat

/-- The core die that an adapter leads to: the others in ascending order; the last adapter leads to the hub. -/
def adapterPeer (s : State) (q a : Nat) : Option Nat := if a < 3 then ((quadsThere s).filter (· ≠ q))[a]? else none

def d2dThere (s : State) : D2dLink → Bool
  | .core q a => quadThere s q.toNat && (a == 3 || (adapterPeer s q.toNat a.toNat).isSome)
  | .chiplet c => sliceThere s (2 * c.toNat)

/-- A cell crosses the link between two core dies. -/
def crosses (q r : Nat) (c : Cell) : Bool :=
  (c.inSlice.toNat / 4 == q && c.outSlice.toNat / 4 == r) || (c.inSlice.toNat / 4 == r && c.outSlice.toNat / 4 == q)

/-- Frames counted against a link (R21). -/
def linkIndex : D2dLink → Nat
  | .core q a => 4 * q.toNat + a.toNat
  | .chiplet c => 16 + c.toNat
def State.countLost (s : State) (link : D2dLink) (n : Nat) : State :=
  { s with faults := { s.faults with d2dLost := Map.upd 0 s.faults.d2dLost (linkIndex link) (· + n) } }

/-- Frames that have cells among some. -/
def framesOf (l : List Cell) : Nat :=
  ((l.filter (fun c => !c.frame.bytes.isEmpty)).map (fun c => (c.inSlice, c.frame.carried))).eraseDups.length

/-- Frames in flight on a failed link are lost, and counted against it: cells between core dies, frames in transmission between a
core die and a chiplet. -/
def State.loseOnLink (s : State) : D2dLink → State
  | .core q a => match adapterPeer s q.toNat a.toNat with
    | some r => (s.loseInFlight (crosses q.toNat r)).countLost (.core q a) (framesOf (s.fabric.filter (crosses q.toNat r)))
    | none => s
  | .chiplet c =>
    let ps := chipletPorts s c.toNat
    (foldNats ps (fun a p => a.endTx p) s).countLost (.chiplet c) (ps.countP (fun p => (s.port p).any (fun x => x.tx.isSome)))

/-- D2D_LINK_ERROR. -/
def d2dError (link : D2dLink) (err : D2dError) (s : State) : State :=
  if s.mode == .reset || !d2dThere s link then s
  else match err with
    | .crcCorrected lane => s.raise (d2dSource link) 0x048 1 1 lane.toNat
    | .laneRepaired lane => s.raise (d2dSource link) 0x049 2 1 lane.toNat
    | .linkFailed => (s.loseOnLink link).raise (d2dSource link) 0x04A 3 1 0

def execD2dLinkError (link : D2dLink) (err : D2dError) (s : State) : Host.Outcome State Fault Refusal :=
  .next (d2dError link err s)

end Sys2Proof.Machine
end

