-- ==== Sys2Proof/Machine/Boot.lean ====
section
/-! DEFINITION. BOOT (R112, R374 to R384): straps, self-test, the choice and load of a bundle, and the end of BOOT; the commands
SELF_TEST, BUNDLE_LOAD, BUNDLE_INFO_GET and FLASH_UPDATE (Table 12.11). -/

namespace Sys2Proof.Machine

/-! ### Self-test (R382, R383) -/

/-- What a self-test has found so far: the units that failed, and those it retired. -/
structure Tested where
  failed : List TestedUnit := []
  retired : List TestedUnit := []
deriving DecidableEq, Repr

/-- An ingress or egress buffer bank, and a quadrant's HOST copy, of a unit present. -/
def ingressBank (s : State) (src : Nat) : Bool := inRange src 0x3000 0x3FFF && sliceThere s (src / 256 % 16) && inRange (src % 256) 0x40 0x7F
def egressBank (s : State) (src : Nat) : Bool := inRange src 0x3000 0x3FFF && sliceThere s (src / 256 % 16) && inRange (src % 256) 0x80 0x8F
def hostCopy (s : State) (src : Nat) : Bool := inRange src 0x2000 0x23FF && quadThere s (src / 256 % 16) && src % 256 == 0x0B

/-- A unit found bad is retired: up to 4 ingress banks and 2 egress banks of a slice, and any HOST bucket. -/
def mayRetire (s : State) (u : TestedUnit) : Bool :=
  let src := u.source.toNat
  let x := s.slice (src / 256 % 16)
  !u.failed &&
  (hostCopy s src || (ingressBank s src && (s.dev.retired.contains (u.source, 0) || decide (x.inRetired + x.inLeaving < 4))) ||
    (egressBank s src && (s.dev.retired.contains (u.source, 0) || decide (x.egRetired + x.egLeaving < 2))))

/-- The retirement of a unit: a bank, or the four slots of a HOST bucket. -/
def State.retireTested (s : State) (u : TestedUnit) : State :=
  if hostCopy s u.source.toNat then
    foldNats (List.range 4) (fun a k => a.retireUnit u.source (u.addr.toNat / 4 * 4 + k) id) s
  else s.retireBank u.source

/-- One unit that the test found bad. -/
def testUnit (r : State × Tested) (u : TestedUnit) : State × Tested :=
  if mayRetire r.1 u then (r.1.retireTested u, { r.2 with retired := r.2.retired ++ [u] })
  else (r.1, { r.2 with failed := r.2.failed ++ [u] })

/-- ADDRESS of SELF_TEST_FAIL. -/
def selfTestAddr (t : Tested) : Nat :=
  ((t.failed.head?).map (·.source.toNat)).getD 0 + 65536 * sat 8 t.failed.length

/-- The end of a self-test: retirements, SELF_TEST_FAIL, and in BOOT what BOOT_STATUS shows. -/
def State.judgeTest (s : State) (found : SelfTestResult) : State × Tested :=
  let r := found.units.foldl testUnit (s, {})
  let bad := !r.2.failed.isEmpty
  let s1 := if bad then r.1.raise 0x1001 0x00C 3 1 (selfTestAddr r.2) else r.1
  let d : DevState := { s1.dev with
    stRetired := BitVec.ofNat 8 (sat 8 r.2.retired.length), stFailed := BitVec.ofNat 8 (sat 8 r.2.failed.length)
    bootError := if bad then 5 else s1.dev.bootError }
  (if s.mode == .boot then { s1 with dev := d } else s1, r.2)

/-- The bundle's images in bank 0 of every store (R379). -/
def State.loadStores (s : State) (b : List Byte) : State := 
  foldNats (storesThere s) (fun a i => a.setStore i false (bankOf i (storeImage b i))) s

/-- Every memory of a powered unit takes its reset value, the audit spools and reserves excepted. -/
def State.testMemories (s : State) : State :=
  let on := fun (d : Nat) => s.domOn d
  let slicePort := fun (i : Nat) => on (4 + i / 64)
  let s1 := s.modTables (fun t => { t with
    portVlan := t.portVlan.filter (fun e => !slicePort e.1)
    vlan := [], nexthop := [], nhgroup := [], mcgroup := [], host := [], lpm4 := [], lpm6 := []
    mcEgress := t.mcEgress.filter (fun e => !on (4 + e.1 / 65536))
    policer := t.policer.filter (fun e => !on (4 + e.1 / 32768))
    shaper := t.shaper.filter (fun e => !(shaperSlices e.1).any (fun n => on (4 + n)))
    acl := t.acl.filter (fun e => !on (4 + e.1 / 16384))
    profiles := if (List.range 4).any (fun q => on (44 + q)) then [] else t.profiles
    flows := t.flows.filter (fun e => !(on (40 + locQuad e.1) || on (44 + locQuad e.1)))
    snat := if (List.range 4).any (fun q => on (44 + q)) then [] else t.snat })
  let s2 := s1.modVers (fun v => { v with stores := [] })
  let s3 : State := { s2 with quads := s2.quads.map (fun e =>
    (e.1, { e.2 with parts := if on (44 + e.1) then e.2.parts.map (fun k => (k.1, { k.2 with cache := [] })) else e.2.parts })) }
  foldNats ((quadsThere s).filter (fun q => on (40 + q))) (fun a q => a.dropSpill q) s3

/-- In BOOT, after a bundle has been loaded, every store is loaded again. -/
def State.reloadStores (s : State) : State :=
  match s.dev.bundle with
  | some b => if s.mode == .boot then s.loadStores b else s
  | none => s

/-- One entry of the result buffer (Table 16.8). -/
def testEntry (outcome : Nat) (u : TestedUnit) : Nat × BitVec 128 :=
  (u.source.toNat, pack 128 [(15, 0, u.source.toNat), (23, 16, outcome), (31, 24, u.test.toNat), (63, 32, u.addr.toNat)])

/-- Entries in SOURCE order. -/
def insertEntry (e : Nat × BitVec 128) : List (Nat × BitVec 128) → List (Nat × BitVec 128)
  | [] => [e]
  | a :: l => if a.1 ≤ e.1 then a :: insertEntry e l else e :: a :: l

/-- The result buffer. -/
def testBuffer (s : State) (tested : BitVec 32) (t : Tested) : List Byte :=
  let es := (t.failed.map (testEntry 1) ++ t.retired.map (testEntry 2)).foldl (fun l e => insertEntry e l) []
  leBytes 64 (pack 512 [(31, 0, tested.toNat), (63, 32, t.failed.length), (95, 64, t.retired.length), (159, 96, s.tbNs)]).toNat ++
    (es.take 1024).flatMap (fun e => leBytes 16 e.2.toNat)

/-- SELF_TEST. -/
def runSelfTest (buf : Addr) (found : SelfTestResult) (s : State) : Res :=
  let r := (s.testMemories).judgeTest found
  .ok (pack 384 [(31, 0, found.tested.toNat), (63, 32, r.2.failed.length)])
    ((r.1.reloadStores).writeBuf buf (testBuffer s found.tested r.2))

def execSelfTest (sub : Sub) (buf : Addr) (bufLen : BitVec 32) (found : SelfTestResult) (s : State) :
    Host.Outcome State Fault Refusal :=
  .next (runCommand Cat.selfTest sub (pack 384 [(63, 0, buf.toNat), (95, 64, bufLen.toNat)])
    { bad := fun _ => misaligned buf || decide (bufLen.toNat < 16448), act := runSelfTest buf found } s)

/-! ### Load of a verified bundle (R378, R379, R381) -/

/-- The chiplets present (R2), and the first whose reference is absent (R394). -/
def chipletsThere (s : State) : List Nat := (List.range 8).filter (fun c => sliceThere s (2 * c))
def darkChiplet (s : State) : Option Nat := (chipletsThere s).find? (fun c => !bitAt s.dev.refclk c)

/-- A chiplet without its reference never reports running. -/
def loadEnd (s : State) (r : LoadResult) : LoadResult :=
  match r, darkChiplet s with
  | .readbackFailed i, _ => .readbackFailed i
  | .chipletFailed c, _ => .chipletFailed c
  | _, some c => .chipletFailed (BitVec.ofNat 8 c)
  | r, none => r

/-- A failure of BOOT: BOOT_VERIFY, HALT, and its ERROR code; ADDRESS names the segment or chiplet. -/
def State.bootFail (s : State) (source code unit : Nat) : State :=
  let s1 := s.raise source 0x00B 3 1 (256 * unit + code)
  { s1 with dev := { s1.dev with bootError := BitVec.ofNat 8 code } }

/-- Step 0x6: the hash keys are drawn and the SVN fuses advanced. -/
def State.bootKeys (s : State) (b : List Byte) : State :=
  let s1 : State := { s.drawn with dev := { s.dev with hostKey := s.free 128 } }
  let s2 : State := { s1.drawn with dev := { s1.dev with flowKey := s1.free 128 } }
  if svnCommit b && decide (s2.fuses.svn < min (bundleSvn b) 64) then
    { s2 with fuses := { s2.fuses with svn := min (bundleSvn b) 64 } }
  else s2

/-- The opening of an epoch at an entry into CONFIGURE (R277). -/
def State.bootEpoch (s : State) : State :=
  if s.dev.resetSrc.toNat < 3 then s
  else if s.time.set then s.openEpoch 2
  else { s with audit := { s.audit with awaiting := some 2 } }

/-- Step 0x7: CONFIGURE is entered (Table 16.6). -/
def State.endBoot (s : State) : State :=
  let s1 := s.setMode .configure
  let s2 := State.initialVersion { s1 with dev := { s1.dev with bootStep := 8 } }
  let s3 := foldNats (quadsThere s2) (fun a q => a.buildSpill q) s2
  (foldNats (bootDoms s3) (fun a d => a.dropVote d bootVote) (s3.bootEpoch)).agents

/-- A verified bundle is kept and loaded, and BOOT goes on as its load ends. -/
def State.loadBundle (s : State) (b : List Byte) (pcie : Bool) (r : LoadResult) : State :=
  let s1 := State.loadStores { s with dev := { s.dev with bundle := some b, loading := none, bootSource := pcie, bundleFromPcie := pcie } } b
  let s2 : State := { s1 with dev := { s1.dev with
    bootError := 0, bundleVer := bundleVer b, bundleNs := BitVec.ofNat 64 s.tbNs, bootStep := 5 } }
  match loadEnd s r with
  | .readbackFailed i => s1.bootFail 0x1001 2 i.toNat
  | .chipletFailed c => s1.bootFail 0x1001 3 c.toNat
  | .keyTestFailed => s2.bootFail 0x1008 4 0
  | .loaded => (s2.bootKeys b).endBoot

/-! ### BOOT_START (R374 to R376, R384) -/

/-- The image in a flash slot. -/
def flashImage (s : State) (slot : Bool) : List Byte := if slot then s.dev.flashB else s.dev.flashA

/-- The slots whose header passes, the one with the higher BUNDLE_VER first, slot A on a tie. -/
def bootSlots (s : State) : List Bool :=
  let a := bundleHeadOk s s.dev.flashA
  let b := bundleHeadOk s s.dev.flashB
  if a && b then
    (if (bundleVer s.dev.flashA).toNat < (bundleVer s.dev.flashB).toNat then [true, false] else [false, true])
  else if a then [false] else if b then [true] else []

/-- The slot that is loaded. -/
def chosenSlot (s : State) : Option Bool := (bootSlots s).find? (fun k => bundleOk s (flashImage s k))

/-- Step 0x4 begins: a load from flash, or the wait for BUNDLE_LOAD. -/
def State.obtain (s : State) : State :=
  let d : DevState := { s.dev with bootStep := 4 }
  if d.bootSrcStrap || d.factory then { s with dev := d }
  else match chosenSlot s with
    | some k => { s with dev := { d with loading := some k, bootSlot := k } }
    | none => { s with dev := { d with bootError := 1 } }

/-- BOOT waits for BUNDLE_LOAD. -/
def bootWaits (s : State) : Bool :=
  s.mode == .boot && s.dev.bootStep == 4 && s.dev.loading.isNone && decide (s.dev.bootError.toNat ≤ 1)

/-- Step 0x3: every domain reports on, then the self-test. -/
def State.bootTest (s : State) (found : SelfTestResult) : State :=
  let ds := (bootDoms s).filter (fun d => !s.domOn d)
  let s1 := foldNats ds (fun a d => a.reportOn d 0 0) { s with dev := { s.dev with bootStep := 3 } }
  let r := s1.judgeTest found
  if r.2.failed.isEmpty then r.1.obtain else r.1

/-- BOOT_START. -/
def startBoot (bootSrc testMode otpGood : Bool) (found : SelfTestResult) (s : State) : State :=
  if s.mode != .boot || !(s.dev.bootStep == 1 || s.dev.bootStep == 2) then s
  else
    let s1 : State := { s with dev := { s.dev with
      bootSrcStrap := bootSrc, factory := testMode && s.fuses.factoryIntact, bootStep := 2
      pcieUp := s.dev.pcieUp || s.dev.perstN } }
    if otpGood then s1.bootTest found else s1.raise 0x1008 0x00A 4 1 0

def execBootStart (bootSrc testMode : Bool) (otpGood : Bool) (found : SelfTestResult) (s : State) :
    Host.Outcome State Fault Refusal := .next (startBoot bootSrc testMode otpGood found s)

/-- BOOT_BUNDLE_LOADED. -/
def bundleLoaded (result : LoadResult) (s : State) : State :=
  if s.mode != .boot then s
  else match s.dev.loading with
    | some k => s.loadBundle (flashImage s k) false result
    | none => s

def execBootBundleLoaded (result : LoadResult) (s : State) : Host.Outcome State Fault Refusal := .next (bundleLoaded result s)

/-! ### Commands (R330, R376) -/

/-- BUNDLE_LOAD. A load that fails after verification has changed state, so its status is OK, and BOOT_VERIFY reports the failure
(R315, R381). -/
def loadAct (data : HostData) (result : LoadResult) (s : State) : Res :=
  if !bootWaits s then .fail .busy s
  else match data with
    | none => .fail .dmaError s
    | some b => if bundleOk s b then .ok 0 (s.loadBundle b true result) else .fail .badSignature s

def execBundleLoad (sub : Sub) (buf : Addr) (len : BitVec 32) (data : HostData) (result : LoadResult) (s : State) :
    Host.Outcome State Fault Refusal :=
  .next (runCommand Cat.bundleLoad sub (pack 384 [(63, 0, buf.toNat), (95, 64, len.toNat)])
    { bad := fun _ => misaligned buf, act := loadAct data result } s)

/-- BUNDLE_INFO_GET. -/
def bundleInfo (s : State) : BitVec 384 :=
  pack 384 [(31, 0, s.dev.bundleVer.toNat), (32, 32, s.dev.bundleFromPcie.toNat), (127, 64, s.dev.bundleNs.toNat)]

def execBundleInfoGet (sub : Sub) (s : State) : Host.Outcome State Fault Refusal :=
  .next (runCommand Cat.bundleInfoGet sub 0 { act := fun s => .ok (bundleInfo s) s } s)

/-- The slot that FLASH_UPDATE writes: not the one the running bundle came from; for a bundle from PCIe, a free value. -/
def updateSlot (s : State) : Bool := if s.dev.bundleFromPcie then s.free 1 == 1 else !s.dev.bootSlot

/-- The image in a flash slot replaced, and the update that runs from then on. -/
def State.setFlash (s : State) (slot : Bool) (b : List Byte) (running : Option (Bool × List Byte)) : State :=
  if slot then { s with dev := { s.dev with flashB := b, flashing := running } }
  else { s with dev := { s.dev with flashA := b, flashing := running } }

/-- FLASH_UPDATE begins: the header of its slot is erased first, so that the slot holds no image that passes R377 (R386). -/
def updateFlash (data : HostData) (s : State) : Res :=
  if s.dev.flashing.isSome then .fail .busy s
  else match data with
    | none => .fail .dmaError s
    | some b =>
      if !bundleOk s b then .fail .badSignature s
      else
        let s1 := if s.dev.bundleFromPcie then s.drawn else s
        .wait (s1.setFlash (updateSlot s) [] (some (updateSlot s, b)))

/-- FLASH_UPDATE ends: the image stands in the slot with its header, and the read-back check finds it there. -/
def endUpdate (s : State) : Res :=
  match s.dev.flashing with
  | none => .wait s
  | some (slot, b) => .ok 0 (s.setFlash slot b none)

def execFlashUpdate (sub : Sub) (buf : Addr) (len : BitVec 32) (data : HostData) (s : State) : Host.Outcome State Fault Refusal :=
  .next (runCommand Cat.flashUpdate sub (pack 384 [(63, 0, buf.toNat), (95, 64, len.toNat)])
    { bad := fun _ => misaligned buf, act := updateFlash data, again := endUpdate } s)

end Sys2Proof.Machine
end

