-- ==== Sys2Proof/Machine/Bar.lean ====
section
/-! DEFINITION. Writes of BAR0 (R4, R7, R23, R30, R31, R284, R288, R291, R356, R362, R412, Tables 11.2 to 11.4): the register at an
offset, latches of wide registers, and the registers without behaviour of their own. -/

namespace Sys2Proof.Machine

/-! ### DOM_CFG (R23, R25, R266) -/

/-- A write of DOM_CFG. -/
def writeDomCfg (v : BitVec 32) (s : State) : State :=
  if !s.hostUp then s
  else if s.mode == .boot || s.mode == .configure then
    State.auditEvent { s with dev := { s.dev with
        domainId := BitVec.ofNat 16 (fld v 31 16), deviceId := BitVec.ofNat 12 (fld v 15 4), domSet := true } }
      0x12 (pack 64 [(31, 4, fld v 31 4), (0, 0, 1)]) s.qual s.qual s.now
  else s.regReject 0x1001 0x108

def execDomCfgWrite (value : BitVec 32) (s : State) : Host.Outcome State Fault Refusal := .next (writeDomCfg value s)

/-! ### The register at an offset -/

/-- A register that the host may write: its offset, its dwords, its source, the value that its latch holds while nothing is
latched, whether it takes a write now, and what the write of its highest dword applies. -/
structure Reg where
  base : Nat
  dwords : Nat
  source : Nat
  current : Nat
  takes : Bool
  apply : Nat → State → State

/-- What a write finds: nothing (no register, an absent unit, the fault window), a read-only register, or a register. -/
inductive Target where
  | nothing
  | readOnly (base source : Nat)
  | reg (r : Reg)

/-- A discarded write: TIME_REG_REJECT in the time-base region, REG_REJECT elsewhere (Table 14.4). -/
def State.discardWrite (s : State) (source base : Nat) : State :=
  if inRange base 0x6000 0x6FFF then s.timeReject base else s.regReject source base

/-- A register of whole dwords that only holds its value: refused by `bad`, kept under `mask`. -/
def plainReg (base dwords source current : Nat) (takes : Bool) (mask : Nat) (bad : Nat → Bool) (set : Nat → State → State) : Reg :=
  { base := base, dwords := dwords, source := source, current := current, takes := takes
    apply := fun v s => if bad v then s.regReject source base else set (v &&& mask) s }

/-! ### Registers of a port -/

/-- Per-port registers of 32 and 64 bits that hold their fields. -/
def badGuard (v : BitVec 64) : Bool :=
  !inRange (fld v 61 48) 1 10000 || !inRange (fld v 47 34) 1 10000 || !inRange (fld v 23 12) 1 3600 || !inRange (fld v 11 0) 1 3600

/-- MIN and HDRM of a BUF_IPC value. -/
def ipcMin (v : Nat) : Nat := v % 4096
def ipcHdrm (v : Nat) : Nat := v / 2 ^ 48 % 4096

/-- A BUF_IPC value that R180 and Table 7.4 discard. -/
def badIpc (s : State) (p c : Nat) (x : Port) (v : Nat) : Bool :=
  let old := (x.ipcOf c).reg.toNat
  let xoff := v / 2 ^ 32 % 8192
  let xon := v / 2 ^ 16 % 8192
  decide (xoff ≤ xon) ||
  ((decide (ipcMin v ≠ ipcMin old) || decide (ipcHdrm v ≠ ipcHdrm old)) && s.mode != .configure) ||
  decide (49152 < minTotal s (p / 64) - ipcMin old + ipcMin v + (s.slice (p / 64)).hdrmPool.toNat)

/-- The trap bucket refilled at the rate in force (R250). -/
def Port.trapNow (now : Nat) (x : Port) : Port :=
  { x with trapTok := min (x.trapTok + fld x.ptpCfg 15 0 * (now - x.trapNs)) 64000000000, trapNs := now }

/-- The register at an offset of a port's block (Table 11.4); `x` is the port, if any. -/
def portReg (s : State) (p o : Nat) : Option Reg :=
  let src := macSource p
  let at_ := portBase p
  let y := s.port p
  let ok := s.sliceWritable (p / 64) && y.isSome
  let cur := fun (f : Port → Nat) => (y.map f).getD 0
  let mk := fun (off n mask : Nat) (get : Port → Nat) (bad : Nat → Bool) (set : Nat → Port → Port) =>
    plainReg (at_ + off) n src (cur get) ok mask bad (fun v s => s.modPort p (set v))
  let c := o % 32 / 4
  if o < 8 then some { base := at_, dwords := 2, source := src, current := cur (·.cfg.toNat), takes := ok
                       apply := fun v s => writePortCfg p (BitVec.ofNat 64 v) s }
  else if o < 0x10 then some (mk 8 2 0xFFFFFFFCFFFFFFFF (·.guard.toNat) (fun v => badGuard (BitVec.ofNat 64 v))
    (fun v x => { x with guard := BitVec.ofNat 64 v }))
  else if o = 0x14 then some (mk 0x14 1 0xFFFF (·.parse.toNat) (fun _ => false) (fun v x => { x with parse := BitVec.ofNat 32 v }))
  else if inRange o 0x18 0x1F then some
    { base := at_ + 0x18, dwords := 2, source := src, current := cur (·.punt.toNat), takes := ok
      apply := fun v s => writePunt p (BitVec.ofNat 64 v) s }
  else if o = 0x20 then some (plainReg (at_ + 0x20) 1 src 0 ok 0xFFFE0000 (fun _ => false)
    (fun v s => (s.modPort p (fun x => { x with flow := BitVec.ofNat 32 v })).agents))
  else if o = 0x24 then some (mk 0x24 1 0x7FFF (·.egrCfg.toNat) (fun v => !inRange (v % 32768) 64 16384)
    (fun v x => { x with egrCfg := BitVec.ofNat 32 v }))
  else if inRange o 0x28 0x2F then some
    { base := at_ + 0x28, dwords := 2, source := src, current := cur (·.sample.toNat), takes := ok
      apply := fun v s => writeSample p (BitVec.ofNat 64 v) s }
  else if o = 0x30 then some (mk 0x30 1 0x3FF03F (·.egrSched.toNat) (fun v => !inRange (v / 4096 % 1024) 16 1023)
    (fun v x => { x with egrSched := BitVec.ofNat 32 v }))
  else if o = 0x34 then some (mk 0x34 1 0xFE00FFFF (·.ptpCfg.toNat) (fun v => v / 2 ^ 28 % 4 == 3)
    (fun v x => { x.trapNow s.tbNs with ptpCfg := BitVec.ofNat 32 v }))
  else if inRange o 0x38 0x3F then some (mk 0x38 2 0xFFFFFFFFFFFFFFFF (·.ptpDelay.toNat) (fun _ => false)
    (fun v x => { x with ptpDelay := BitVec.ofNat 64 v }))
  else if inRange o 0x40 0x7F then
    let k := (o - 0x40) / 8
    some (plainReg (at_ + 0x40 + 8 * k) 2 src (cur (fun x => (x.ipcOf k).reg.toNat)) ok 0x0FFF1FFF1FFF0FFF
      (fun v => y.any (fun x => badIpc s p k x v))
      (fun v s => (s.modPort p (fun x => x.modIpc k (fun a => { a with reg := BitVec.ofNat 64 v }))).checkIpc p k))
  else if inRange o 0x80 0x9F then some (mk (0x80 + 4 * c) 1 0x80007FFF (fun _ => 0) (fun _ => false)
    (fun v x => { x with polSel := Map.put 0 x.polSel c (BitVec.ofNat 32 v) }))
  else if inRange o 0xA0 0xBF then some (mk (0xA0 + 4 * c) 1 0xFF30 (fun _ => 0) (fun v => v / 256 % 256 == 0)
    (fun v x => x.modEgr c (fun e => { e with reg := BitVec.ofNat 32 v })))
  else none

/-! ### Registers of a slice (Tables 7.3, 7.8, 13.5, 13.10, 13.11) -/

/-- The admission block of a slice, source of its own registers. -/
def admSource (sl : Nat) : Nat := 0x3000 + 0x100 * sl

/-- TELEM_PORT: the countdown of R339 is drawn from 1 to N. -/
def setTelem (p v : Nat) (s : State) : State :=
  s.drawn.modPort p (fun x => { x with telem := BitVec.ofNat 64 v, pcCount := drawCount s (v / 2 ^ 24 % 2 ^ 24) })

/-- PC_CFG: SEQ counts from 1 at EN. -/
def setPcCfg (sl v : Nat) (s : State) : State :=
  s.modSlice sl (fun x => { x with
    pcCfg := BitVec.ofNat 64 v, pcSeq := if bitAt (BitVec.ofNat 64 v) 63 && !bitAt x.pcCfg 63 then 1 else x.pcSeq })

/-- What an offset of slice `sl`'s window holds. -/
def sliceTarget (s : State) (sl o : Nat) : Target :=
  let w := 0x800000 + 0x80000 * sl
  let src := admSource sl
  let x := s.slice sl
  let ok := s.sliceWritable sl
  let p := 64 * sl + (o - 0x31000) / 8
  if !sliceThere s sl then .nothing
  else if o < 0x10000 then
    let q := 64 * sl + o / 0x400
    if inRange (o % 0x400) 0x10 0x13 then .readOnly (portBase q + 0x10) (macSource q)
    else if inRange (o % 0x400) 0x20 0x23 && s.fuses.member == 3 then .nothing
    else match portReg s q (o % 0x400) with
      | some r => .reg r
      | none => .nothing
  else if o < 0x20000 then .readOnly (w + o / 8 * 8) src
  else if o < 0x20008 then .reg (plainReg (w + 0x20000) 2 src (x.hdrmPool.toNat * 2 ^ 32) (ok && s.mode == .configure) 0x1FFFF00000000
    (fun v => decide (49152 < v / 2 ^ 32 % 2 ^ 17 + minTotal s sl))
    (fun v s => s.modSlice sl (fun y => { y with hdrmPool := BitVec.ofNat 17 (v / 2 ^ 32) })))
  else if o = 0x20008 then .reg (plainReg (w + 0x20008) 1 src 0 ok 0x1FFFF (fun v => !inRange (v % 2 ^ 17) 100 100000)
    (fun v s => s.modSlice sl (fun y => { y with bufMc := BitVec.ofNat 32 v })))
  else if inRange o 0x20010 0x2002F then .readOnly (w + o) src
  else if inRange o 0x30000 0x303FF then (if o % 0x20 < 0x18 then .readOnly (w + o / 8 * 8) src else .nothing)
  else if inRange o 0x31000 0x311FF then .reg (plainReg (w + o / 8 * 8) 2 (macSource p)
    (((s.port p).map (·.telem.toNat)).getD 0) (ok && (s.port p).isSome) 0xC0FFFFFFFF000000 (fun _ => false) (setTelem p))
  else if inRange o 0x32000 0x32007 then .reg (plainReg (w + 0x32000) 2 src x.pcCfg.toNat ok 0x83FF700000000000
    (fun v => bitAt (BitVec.ofNat 64 v) 63 && (s.port (v / 2 ^ 48 % 1024)).isNone) (setPcCfg sl))
  else if inRange o 0x32010 0x3201F then .reg (plainReg (w + 0x32010) 4 src x.pcHdr.toNat ok (2 ^ 128 - 2 ^ 16) (fun _ => false)
    (fun v s => s.modSlice sl (fun y => { y with pcHdr := BitVec.ofNat 128 v })))
  else .nothing

/-! ### Hub registers -/

/-- LEARN_CFG out of range (Table 5.13). -/
def badLearn (v : BitVec 64) : Bool :=
  !(fld v 63 44 == 0 || inRange (fld v 63 44) 10 1000000) || !inRange (fld v 43 32) 100 4000 || fld v 31 28 == 0 || fld v 27 24 == 0

/-- AUD_CFG: export follows it at once. -/
def setAudCfg (v : Nat) (s : State) : State :=
  foldNats (chainsThere s) (fun a c => a.freeSlots c) { s with audit := { s.audit with cfg := BitVec.ofNat 64 v } }

/-- SYNCE_CFG (R239). -/
def badSynce (s : State) (v : Nat) : Bool :=
  !inRange (v % 8192) 16 4096 || (v.testBit 31 && (s.port (v / 2 ^ 16 % 1024)).isNone)

/-- A dword of CTR_PAGE_USER: the bits of pages `n` to `n + 31` (R291). -/
def setPages (n v : Nat) (s : State) : State :=
  { s with host := { s.host with
    pageUser := s.host.pageUser.filter (· < n) ++ (bitsSet 32 v).map (n + ·) ++ s.host.pageUser.filter (n + 32 ≤ ·) } }

/-- A host base register. -/
def baseReg (base source : Nat) (current : Addr) (takes : Bool) (set : Addr → State → State) : Reg :=
  plainReg base 2 source current.toNat takes (2 ^ 64 - 1) (fun _ => false) (fun v s => set (BitVec.ofNat 64 v) s)

/-- The identity, mode and protection region. -/
def identityTarget (s : State) (o : Nat) : Target :=
  if o < 0x20 then .readOnly 0 0x1001
  else if o = 0x100 then .readOnly 0x100 0x1001
  else if o = 0x108 then .reg { base := 0x108, dwords := 1, source := 0x1001, current := 0
                                takes := s.mode == .boot || s.mode == .configure
                                apply := fun v s => writeDomCfg (BitVec.ofNat 32 v) s }
  else if inRange o 0x110 0x117 then .readOnly 0x110 0x1001
  else if o = 0x140 then .reg { base := 0x140, dwords := 1, source := 0x1001, current := 0, takes := true
                                apply := fun v s => writeRstCtl (BitVec.ofNat 32 v) s }
  else if inRange o 0x148 0x14F then .readOnly 0x148 0x1001
  else if inRange o 0x200 0x20F then .readOnly (o / 4 * 4) 0x1001
  else .nothing

/-- The Table Access Window (R125, Tables 5.7, 5.8). GO = 1 starts the operation. -/
def State.modTaw (s : State) (f : Taw → Taw) : State := { s with host := { s.host with taw := f s.host.taw } }
def tawTarget (s : State) (o : Nat) : Target :=
  if o < 0x5008 then .reg
    { base := 0x5000, dwords := 2, source := 0x1003, current := s.host.taw.cmd.toNat, takes := true
      apply := fun v s =>
        if v.testBit 63 then tawGo (BitVec.ofNat 64 v) 0 s
        else s.modTaw (fun t => { t with cmd := BitVec.ofNat 64 v &&& 0x70F0_FF00_FFFF_FFFF }) }
  else if o = 0x5008 then .reg
    { base := 0x5008, dwords := 1, source := 0x1003, current := 0, takes := true
      apply := fun v s => s.modTaw (fun t => { t with overrun := t.overrun && !v.testBit 16 }) }
  else if inRange o 0x5040 0x507F then .reg
    { base := o, dwords := 1, source := 0x1003, current := 0, takes := true
      apply := fun v s => s.modTaw (fun t => { t with data := Map.put 0 t.data ((o - 0x5040) / 4) (BitVec.ofNat 32 v) }) }
  else .nothing

/-- The time base (R226, R227): TIME_SET_SEC is latched whole, and TIME_SET_NS applies with it. -/
def timeTarget (s : State) (o : Nat) : Target :=
  let mk := fun (base current : Nat) (f : Nat → State → State) =>
    Target.reg { base := base, dwords := 2, source := 0x1004, current := current, takes := true, apply := f }
  if o < 0x6008 then mk 0x6000 s.time.inc.toNat (fun v s => writeInc (BitVec.ofNat 64 v) s)
  else if o < 0x6010 then mk 0x6008 0 (fun v s => writeAdj (BitVec.ofNat 64 v) s)
  else if o < 0x6018 then mk 0x6010 0 (fun v s => s.latch 0x6014 (BitVec.ofNat 32 (v / 2 ^ 32)))
  else if o < 0x6020 then mk 0x6018 0 (fun v s =>
    writeSet (BitVec.ofNat 64 ((Map.val s.host.latch 0x6014 0).toNat * 2 ^ 32 + (Map.val s.host.latch 0x6010 0).toNat))
      (BitVec.ofNat 64 v) s)
  else if o < 0x6030 then .readOnly 0x6020 0x1004
  else if o < 0x6038 then .readOnly 0x6030 0x1004
  else if o < 0x6040 then mk 0x6038 s.time.ctl.toNat (fun v s => writeTimeCtl (BitVec.ofNat 64 v) s)
  else if o < 0x6048 then .readOnly 0x6040 0x1004
  else if inRange o 0x6050 0x605F then .readOnly 0x6050 0x1004
  else if inRange o 0x6060 0x6067 then .readOnly 0x6060 0x1004
  else if o = 0x6068 then .readOnly 0x6068 0x1004
  else .nothing

/-- The admin queue registers (Table 11.8). -/
def adminTarget (s : State) (o : Nat) : Target :=
  let free := !s.host.adminRunning
  if o < 0x7008 then .reg (baseReg 0x7000 0x1001 s.host.adminSq free (fun v s => { s with host := { s.host with adminSq := v } }))
  else if o < 0x7010 then .reg (baseReg 0x7008 0x1001 s.host.adminCq free (fun v s => { s with host := { s.host with adminCq := v } }))
  else if o < 0x7018 then .reg (baseReg 0x7010 0x1001 s.host.adminEq free (fun v s => { s with host := { s.host with adminEq := v } }))
  else if o < 0x7020 then .reg
    { base := 0x7018, dwords := 2, source := 0x1001, current := s.host.adminCtl.toNat, takes := true
      apply := fun v s => writeAdminCtl (BitVec.ofNat 64 v) s }
  else if o = 0x7020 then .readOnly 0x7020 0x1001
  else .nothing

/-- The registers of a Strainer (R307, R310). -/
def strainerTarget (s : State) (q o : Nat) : Target :=
  let b := 0x8000 + 0x100 * q
  let src := 0x1010 + q
  let r := s.strainer q
  let free := s.confRun && !r.en
  if !quadThere s q then .nothing
  else if o < 8 then .reg (baseReg b src r.areaBase free (fun v s => s.modStrainer q (fun r => { r with areaBase := v })))
  else if o < 0x10 then .reg (baseReg (b + 8) src r.nringBase free (fun v s => s.modStrainer q (fun r => { r with nringBase := v })))
  else if o < 0x18 then .reg
    { base := b + 0x10, dwords := 2, source := src, current := r.cfg.toNat, takes := free || (o == 0x14 && r.en)
      apply := fun v s => writeStrCfg q (BitVec.ofNat 64 v) s }
  else if o = 0x18 then .reg
    { base := b + 0x18, dwords := 1, source := src, current := 0, takes := true
      apply := fun v s => if v.testBit 0 then writeFlush q s else s }
  else if inRange o 0x20 0x27 then .readOnly (b + 0x20) src
  else .nothing

/-- The hub configuration region. -/
def hubTarget (s : State) (o : Nat) : Target :=
  let ok := s.confRun
  let q := o % 32 / 8
  if o < 8 then .reg (plainReg 0x9000 2 0x1001 s.tables.learnCfg.toNat ok (2 ^ 64 - 1 - 0x3F0000)
    (fun v => badLearn (BitVec.ofNat 64 v)) (fun v s => s.setLearn (BitVec.ofNat 64 v)))
  else if o < 0x10 then .reg (plainReg 0x9008 2 0x1001 s.tables.flowCfg.toNat ok 0x800000000000FFFF (fun _ => false)
    (fun v s => s.modTables (fun t => { t with flowCfg := BitVec.ofNat 64 v })))
  else if inRange o 0x10 0x2F then (if hbmThere s ((o - 0x10) / 8) then .readOnly (0x9000 + o / 8 * 8) 0x1001 else .nothing)
  else if inRange o 0x40 0x47 then .reg (plainReg 0x9040 2 0x1005 s.audit.cfg.toNat ok (2 ^ 64 - 1 - 0x3FFFFFF0000)
    (fun v => v.testBit 62 && (s.port (v / 2 ^ 42 % 1024)).isNone) setAudCfg)
  else if inRange o 0x50 0x5F then .reg (plainReg 0x9050 4 0x1005 s.audit.expHdr.toNat ok (2 ^ 128 - 2 ^ 16) (fun _ => false)
    (fun v s => { s with audit := { s.audit with expHdr := BitVec.ofNat 128 v } }))
  else if inRange o 0x60 0x9F then (if chainThere s q then .readOnly (0x9000 + o / 8 * 8) 0x1001 else .nothing)
  else if o = 0xA0 then .readOnly 0x90A0 0x1001
  else if inRange o 0xC0 0xC7 then .reg (plainReg (0x9000 + o) 1 0x1001 0 ok 0x83FF1FFF (badSynce s)
    (fun v s => { s with synce := Map.put 0x10 s.synce ((o - 0xC0) / 4) (BitVec.ofNat 32 v) }))
  else if inRange o 0x100 0x117 then .reg (plainReg 0x9100 6 0x1001 s.ioam.toNat ok (2 ^ 192 - 2 ^ 72 + (2 ^ 64 - 2 ^ 32) + 1)
    (fun _ => false) (fun v s => { s with ioam := BitVec.ofNat 192 v }))
  else .nothing

/-- The power controller and the supply monitors (Table 15.7). -/
def powerTarget (s : State) (o : Nat) : Target :=
  let ok := s.confRun
  if o < 0x180 then .readOnly (0xC000 + o / 8 * 8) 0x1006
  else if o = 0x200 then .reg (plainReg 0xC200 1 0x1006 0 ok 0xFFFF (fun v => !inRange (v % 65536) 10 65535)
    (fun v s => { s with power := { s.power with holdoffUs := BitVec.ofNat 16 v } }))
  else if inRange o 0x400 0x43F && o % 8 == 0 then .reg (plainReg (0xC000 + o) 1 0x1006 0 ok 0xFF (fun v => !inRange (v % 256) 20 80)
    (fun v s => s.modRail ((o - 0x400) / 8) (fun x => { x with warnPm := BitVec.ofNat 8 v })))
  else if inRange o 0x500 0x53F then .readOnly (0xC000 + o / 8 * 8) 0x1006
  else if o = 0x600 then .readOnly 0xC600 0x1006
  else .nothing

/-- What an offset of BAR0 holds (Table 11.2). -/
def targetAt (s : State) (o : Nat) : Target :=
  if o < 0x1000 then identityTarget s o
  else if o < 0x5000 then .nothing
  else if o < 0x6000 then tawTarget s o
  else if o < 0x7000 then timeTarget s o
  else if o < 0x8000 then adminTarget s o
  else if o < 0x8400 then strainerTarget s ((o - 0x8000) / 0x100) (o % 0x100)
  else if inRange o 0x9000 0x9FFF then hubTarget s (o - 0x9000)
  else if inRange o 0xA000 0xBFFF then .reg
    { base := o, dwords := 1, source := 0x1001, current := 0, takes := true
      apply := fun v s => setPages (8 * (o - 0xA000)) v s }
  else if inRange o 0xC000 0xFFFF then powerTarget s (o - 0xC000)
  else if inRange o 0x400000 0x43FFFF then
    let q := (o - 0x400000) / 0x10000
    if hbmThere s q && decide (o % 0x10000 < 8) then .readOnly (o / 8 * 8) (0x2009 + 0x100 * q) else .nothing
  else if inRange o 0x800000 0xFFFFFF then sliceTarget s ((o - 0x800000) / 0x80000) (o % 0x80000)
  else .nothing

/-! ### A dword write (R31, R284) -/

/-- The whole value that a write of a register's highest dword applies: each lower dword from its latch. -/
def Reg.value (s : State) (r : Reg) (top : BitVec 32) : Nat :=
  (List.range (r.dwords - 1)).foldl
    (fun a k => a + (Map.val s.host.latch (r.base + 4 * k) (BitVec.ofNat 32 (r.current / 2 ^ (32 * k)))).toNat * 2 ^ (32 * k))
    (top.toNat * 2 ^ (32 * (r.dwords - 1)))

/-- One whole dword written at an offset. -/
def State.writeDword (s : State) (o : Nat) (v : BitVec 32) : State :=
  match targetAt s o with
  | .nothing => s
  | .readOnly base source => s.discardWrite source base
  | .reg r =>
    if !r.takes then s.discardWrite r.source r.base
    else if o + 4 = r.base + 4 * r.dwords then r.apply (r.value s v) s
    else s.latch o v

/-- An offset lies in the window of a unit that is absent on the member (R4): a Strainer, an Infuser install sequence, a chain, a
power domain, a quadrant's spill, a slice, FLOW_PORT without Infuser, and VOQ_DEPTH toward an egress port that is absent. -/
def absentUnit (s : State) (o : Nat) : Bool :=
  if inRange o 0x8000 0x83FF then !quadThere s ((o - 0x8000) / 0x100)
  else if inRange o 0x9010 0x902F then !hbmThere s ((o - 0x9010) / 8)
  else if inRange o 0x9060 0x909F then !chainThere s (o % 32 / 8)
  else if inRange o 0xC000 0xC17F then !domThere s ((o - 0xC000) / 8)
  else if inRange o 0x400000 0x43FFFF then !hbmThere s ((o - 0x400000) / 0x10000)
  else if inRange o 0x800000 0xFFFFFF then
    let k := o % 0x80000
    !sliceThere s ((o - 0x800000) / 0x80000) ||
    (decide (k < 0x10000) && inRange (k % 0x400) 0x20 0x23 && s.fuses.member == 3) ||
    (inRange k 0x10000 0x1FFFF && !sliceThere s ((k - 0x10000) / 64 / 64))
  else false

/-- REGISTER_WRITE. In RESET and LOCKOUT, and while the PCIe link is down, nothing is written. A write to an absent unit is
discarded without a fault, whole or partial: an absent source sends no message (R4, R343). -/
def writeRegister (offset : BitVec 24) (enables : BitVec 4) (value : BitVec 32) (s : State) : State :=
  let o := offset.toNat
  if !s.hostUp || absentUnit s o then s
  else if enables ≠ 0xF ∨ o % 4 ≠ 0 then s.raise (regionSource o) 0x002 0 1 o
  else s.writeDword o value

def execRegisterWrite (offset : BitVec 24) (enables : BitVec 4) (value : BitVec 32) (s : State) :
    Host.Outcome State Fault Refusal := .next (writeRegister offset enables value s)

end Sys2Proof.Machine
end

