-- ==== Sys2Proof/Machine/Dispatch.lean ====
section
/-! DEFINITION. The meaning of every command: one arm per row of spec/opcode_table.json, in the table's order. -/

namespace Sys2Proof.Machine

def exec (i : Instr) (s : State) : Host.Outcome State Fault Refusal :=
  match i with
  | .nop sub => Sys2Proof.Machine.execNop sub s
  | .modeSet sub target => Sys2Proof.Machine.execModeSet sub target s
  | .queueCreate sub sqBase eqBase cq pollNs domain sqExp eqExp eqVec eqIrq => Sys2Proof.Machine.execQueueCreate sub sqBase eqBase cq pollNs domain sqExp eqExp eqVec eqIrq s
  | .queueDestroy sub queue => Sys2Proof.Machine.execQueueDestroy sub queue s
  | .cqCreate sub base pollNs exp vec irq coalNs => Sys2Proof.Machine.execCqCreate sub base pollNs exp vec irq coalNs s
  | .cqDestroy sub cq => Sys2Proof.Machine.execCqDestroy sub cq s
  | .protSet sub value domain => Sys2Proof.Machine.execProtSet sub value domain s
  | .queueStatusGet sub queue => Sys2Proof.Machine.execQueueStatusGet sub queue s
  | .portCreate sub slice firstLane typ => Sys2Proof.Machine.execPortCreate sub slice firstLane typ s
  | .portDestroy sub port => Sys2Proof.Machine.execPortDestroy sub port s
  | .portStatusGet sub port => Sys2Proof.Machine.execPortStatusGet sub port s
  | .portAttrSet sub port attr => Sys2Proof.Machine.execPortAttrSet sub port attr s
  | .portHoldClear sub port => Sys2Proof.Machine.execPortHoldClear sub port s
  | .laneStatusGet sub buf port lane => Sys2Proof.Machine.execLaneStatusGet sub buf port lane s
  | .laneCfgSet sub port lane rxInvert txInvert txCtl cPre cMain cPost timeout => Sys2Proof.Machine.execLaneCfgSet sub port lane rxInvert txInvert txCtl cPre cMain cPost timeout s
  | .laneCfgGet sub port lane => Sys2Proof.Machine.execLaneCfgGet sub port lane s
  | .laneAdaptCtl sub port lane action => Sys2Proof.Machine.execLaneAdaptCtl sub port lane action s
  | .laneRetireClear sub port lane => Sys2Proof.Machine.execLaneRetireClear sub port lane s
  | .laneSerCfg sub port window thresh => Sys2Proof.Machine.execLaneSerCfg sub port window thresh s
  | .hostAdd sub entry => Sys2Proof.Machine.execHostAdd sub entry s
  | .hostDelete sub key => Sys2Proof.Machine.execHostDelete sub key s
  | .search sub key copy tabId bufBlk => Sys2Proof.Machine.execSearch sub key copy tabId bufBlk s
  | .next sub cursor buf tabId copy count => Sys2Proof.Machine.execNext sub cursor buf tabId copy count s
  | .flushByPort sub port vlan includeStatic tabId => Sys2Proof.Machine.execFlushByPort sub port vlan includeStatic tabId s
  | .lpmAdd sub key resKind resIndex tabId => Sys2Proof.Machine.execLpmAdd sub key resKind resIndex tabId s
  | .lpmDelete sub key resKind resIndex tabId => Sys2Proof.Machine.execLpmDelete sub key resKind resIndex tabId s
  | .tableInfo sub tabId copy => Sys2Proof.Machine.execTableInfo sub tabId copy s
  | .rulesetOpen sub => Sys2Proof.Machine.execRulesetOpen sub s
  | .rulesetCommit sub waitLimit wait => Sys2Proof.Machine.execRulesetCommit sub waitLimit wait s
  | .rulesetAbort sub => Sys2Proof.Machine.execRulesetAbort sub s
  | .versionStatusGet sub => Sys2Proof.Machine.execVersionStatusGet sub s
  | .keyProfileSet sub profile count extracts => Sys2Proof.Machine.execKeyProfileSet sub profile count extracts s
  | .parseNodeSet sub def_ => Sys2Proof.Machine.execParseNodeSet sub def_ s
  | .csStageLoad sub buf len storeMask data => Sys2Proof.Machine.execCsStageLoad sub buf len storeMask data s
  | .flowProfileSet sub buf profile data => Sys2Proof.Machine.execFlowProfileSet sub buf profile data s
  | .flowProfileGet sub buf profile => Sys2Proof.Machine.execFlowProfileGet sub buf profile s
  | .flowInstall sub buf replace data => Sys2Proof.Machine.execFlowInstall sub buf replace data s
  | .flowDelete sub key => Sys2Proof.Machine.execFlowDelete sub key s
  | .flowGet sub buf flowId loc => Sys2Proof.Machine.execFlowGet sub buf flowId loc s
  | .flowStatusGet sub quad => Sys2Proof.Machine.execFlowStatusGet sub quad s
  | .bufClassSet sub slice cls fields => Sys2Proof.Machine.execBufClassSet sub slice cls fields s
  | .bufClassGet sub slice cls => Sys2Proof.Machine.execBufClassGet sub slice cls s
  | .voqFlush sub voq => Sys2Proof.Machine.execVoqFlush sub voq s
  | .gateListSet sub base cycle count buf gate data => Sys2Proof.Machine.execGateListSet sub base cycle count buf gate data s
  | .gateListGet sub gate bufLen buf => Sys2Proof.Machine.execGateListGet sub gate bufLen buf s
  | .gateListAbort sub gate => Sys2Proof.Machine.execGateListAbort sub gate s
  | .ptpTx sub buf port len ptpOff csumOff cls mode ref data => Sys2Proof.Machine.execPtpTx sub buf port len ptpOff csumOff cls mode ref data s
  | .tsCalGet sub port => Sys2Proof.Machine.execTsCalGet sub port s
  | .audCertGet sub buf bufLen => Sys2Proof.Machine.execAudCertGet sub buf bufLen s
  | .audBufPost sub addr len chain => Sys2Proof.Machine.execAudBufPost sub addr len chain s
  | .audBufReclaim sub chain => Sys2Proof.Machine.execAudBufReclaim sub chain s
  | .audStatusGet sub chain => Sys2Proof.Machine.execAudStatusGet sub chain s
  | .ctrSnapshot sub buf firstPage pages => Sys2Proof.Machine.execCtrSnapshot sub buf firstPage pages s
  | .sctrSet sub sctr event eventQueue en thresh => Sys2Proof.Machine.execSctrSet sub sctr event eventQueue en thresh s
  | .sctrGet sub sctr => Sys2Proof.Machine.execSctrGet sub sctr s
  | .faultAck sub msg => Sys2Proof.Machine.execFaultAck sub msg s
  | .faultListGet sub buf bufLen => Sys2Proof.Machine.execFaultListGet sub buf bufLen s
  | .faultWindowSet sub kind window thresh => Sys2Proof.Machine.execFaultWindowSet sub kind window thresh s
  | .faultInject sub msg => Sys2Proof.Machine.execFaultInject sub msg s
  | .pwrVote sub domain take => Sys2Proof.Machine.execPwrVote sub domain take s
  | .pwrStatusGet sub domain => Sys2Proof.Machine.execPwrStatusGet sub domain s
  | .selfTest sub buf bufLen found => Sys2Proof.Machine.execSelfTest sub buf bufLen found s
  | .eyeScanStart sub buf bufLen port lane eye dwellExp vMin vMax vStep pMin pMax pStep errStop => Sys2Proof.Machine.execEyeScanStart sub buf bufLen port lane eye dwellExp vMin vMax vStep pMin pMax pStep errStop s
  | .eyeScanStatus sub port scanId => Sys2Proof.Machine.execEyeScanStatus sub port scanId s
  | .eyeScanAbort sub port scanId => Sys2Proof.Machine.execEyeScanAbort sub port scanId s
  | .laneTestCtl sub port lane start pattern loop genEn chkEn => Sys2Proof.Machine.execLaneTestCtl sub port lane start pattern loop genEn chkEn s
  | .bundleLoad sub buf len data result => Sys2Proof.Machine.execBundleLoad sub buf len data result s
  | .bundleInfoGet sub => Sys2Proof.Machine.execBundleInfoGet sub s
  | .flashUpdate sub buf len data => Sys2Proof.Machine.execFlashUpdate sub buf len data s
  | .tawRead cmd overruns => Sys2Proof.Machine.execTawRead cmd overruns s
  | .tawWrite cmd overruns => Sys2Proof.Machine.execTawWrite cmd overruns s
  | .tawDelete cmd overruns => Sys2Proof.Machine.execTawDelete cmd overruns s
  | .registerWrite offset enables value => Sys2Proof.Machine.execRegisterWrite offset enables value s
  | .domCfgWrite value => Sys2Proof.Machine.execDomCfgWrite value s
  | .portEnable port cfg => Sys2Proof.Machine.execPortEnable port cfg s
  | .portDisable port cfg => Sys2Proof.Machine.execPortDisable port cfg s
  | .puntMeterWrite port value => Sys2Proof.Machine.execPuntMeterWrite port value s
  | .sampleCfgWrite port value => Sys2Proof.Machine.execSampleCfgWrite port value s
  | .timeIncWrite value => Sys2Proof.Machine.execTimeIncWrite value s
  | .timeAdjWrite value => Sys2Proof.Machine.execTimeAdjWrite value s
  | .timeSet sec ns => Sys2Proof.Machine.execTimeSet sec ns s
  | .timeCtlWrite value => Sys2Proof.Machine.execTimeCtlWrite value s
  | .timeNowLatch => Sys2Proof.Machine.execTimeNowLatch s
  | .ppsInLatch => Sys2Proof.Machine.execPpsInLatch s
  | .ppsInLatchRelease => Sys2Proof.Machine.execPpsInLatchRelease s
  | .fwStatusLatch => Sys2Proof.Machine.execFwStatusLatch s
  | .pwrResetCauseRead => Sys2Proof.Machine.execPwrResetCauseRead s
  | .adminEnable value => Sys2Proof.Machine.execAdminEnable value s
  | .adminDisable value => Sys2Proof.Machine.execAdminDisable value s
  | .strainerEnable q value => Sys2Proof.Machine.execStrainerEnable q value s
  | .strainerDisable q value => Sys2Proof.Machine.execStrainerDisable q value s
  | .flush q => Sys2Proof.Machine.execFlush q s
  | .rstCtlWrite value => Sys2Proof.Machine.execRstCtlWrite value s
  | .resetNLow => Sys2Proof.Machine.execResetNLow s
  | .resetNRise => Sys2Proof.Machine.execResetNRise s
  | .perstAssert => Sys2Proof.Machine.execPerstAssert s
  | .hostIfReset cause => Sys2Proof.Machine.execHostIfReset cause s
  | .powerOn => Sys2Proof.Machine.execPowerOn s
  | .resetExit => Sys2Proof.Machine.execResetExit s
  | .bootStart bootSrc testMode otpGood found => Sys2Proof.Machine.execBootStart bootSrc testMode otpGood found s
  | .bootBundleLoaded result => Sys2Proof.Machine.execBootBundleLoaded result s
  | .signalDetectAssert lane => Sys2Proof.Machine.execSignalDetectAssert lane s
  | .signalDetectDeassert lane => Sys2Proof.Machine.execSignalDetectDeassert lane s
  | .autonegComplete port => Sys2Proof.Machine.execAutonegComplete port s
  | .trainComplete port presets requests => Sys2Proof.Machine.execTrainComplete port presets requests s
  | .alignLock port skews => Sys2Proof.Machine.execAlignLock port skews s
  | .alignmentLost port => Sys2Proof.Machine.execAlignmentLost port s
  | .rsFaultReceived port fault => Sys2Proof.Machine.execRsFaultReceived port fault s
  | .linkUp port => Sys2Proof.Machine.execLinkUp port s
  | .stampCalibration port dRx dTx bound => Sys2Proof.Machine.execStampCalibration port dRx dTx bound s
  | .trainTimeoutExpiry port => Sys2Proof.Machine.execTrainTimeoutExpiry port s
  | .alignTimeout port => Sys2Proof.Machine.execAlignTimeout port s
  | .backoffExpiry port => Sys2Proof.Machine.execBackoffExpiry port s
  | .recoverEntry lane => Sys2Proof.Machine.execRecoverEntry lane s
  | .recoverExit lane => Sys2Proof.Machine.execRecoverExit lane s
  | .recoverTimeout lane => Sys2Proof.Machine.execRecoverTimeout lane s
  | .freezeTimeout lane => Sys2Proof.Machine.execFreezeTimeout lane s
  | .testAcquired lane bitErrors => Sys2Proof.Machine.execTestAcquired lane bitErrors s
  | .serWindowEnd lane corrected symbols => Sys2Proof.Machine.execSerWindowEnd lane corrected symbols s
  | .flapHoldDown port => Sys2Proof.Machine.execFlapHoldDown port s
  | .holdTimeExpiry port => Sys2Proof.Machine.execHoldTimeExpiry port s
  | .eyeScanPointDone lane errors compared => Sys2Proof.Machine.execEyeScanPointDone lane errors compared s
  | .frameReceive rx => Sys2Proof.Machine.execFrameReceive rx s
  | .pfcReceive port enable quanta octets => Sys2Proof.Machine.execPfcReceive port enable quanta octets s
  | .pauseReceive port quanta octets => Sys2Proof.Machine.execPauseReceive port quanta octets s
  | .pauseExpiry port cls => Sys2Proof.Machine.execPauseExpiry port cls s
  | .pfcStorm port cls => Sys2Proof.Machine.execPfcStorm port cls s
  | .pfcStormEnd port cls => Sys2Proof.Machine.execPfcStormEnd port cls s
  | .pfcXoffRepeat port cls => Sys2Proof.Machine.execPfcXoffRepeat port cls s
  | .infuserHeader partition upset => Sys2Proof.Machine.execInfuserHeader partition upset s
  | .fetchReturn partition loc result => Sys2Proof.Machine.execFetchReturn partition loc result s
  | .flowFetchTimeout partition loc => Sys2Proof.Machine.execFlowFetchTimeout partition loc s
  | .flowSweep partition => Sys2Proof.Machine.execFlowSweep partition s
  | .learnRequest q => Sys2Proof.Machine.execLearnRequest q s
  | .moveWindowBoundary => Sys2Proof.Machine.execMoveWindowBoundary s
  | .ageSweep => Sys2Proof.Machine.execAgeSweep s
  | .csParityRepair source bank word copyGood => Sys2Proof.Machine.execCsParityRepair source bank word copyGood s
  | .tableParityRepair table copy loc copyGood => Sys2Proof.Machine.execTableParityRepair table copy loc copyGood s
  | .commitResume => Sys2Proof.Machine.execCommitResume s
  | .commitWaitLimit => Sys2Proof.Machine.execCommitWaitLimit s
  | .versionDrained => Sys2Proof.Machine.execVersionDrained s
  | .verDrainSlow => Sys2Proof.Machine.execVerDrainSlow s
  | .grant port ecc => Sys2Proof.Machine.execGrant port ecc s
  | .fabricCell slice idx => Sys2Proof.Machine.execFabricCell slice idx s
  | .fabricSeqTimeout slice inSlice => Sys2Proof.Machine.execFabricSeqTimeout slice inSlice s
  | .planeFail q plane => Sys2Proof.Machine.execPlaneFail q plane s
  | .transmitDecision port pPrime arriving => Sys2Proof.Machine.execTransmitDecision port pPrime arriving s
  | .frameTransmit port ecc crossed => Sys2Proof.Machine.execFrameTransmit port ecc crossed s
  | .spillReadback slice queue ecc => Sys2Proof.Machine.execSpillReadback slice queue ecc s
  | .caddyRefill q => Sys2Proof.Machine.execCaddyRefill q s
  | .caddyWriteback q => Sys2Proof.Machine.execCaddyWriteback q s
  | .spillBuildDone q => Sys2Proof.Machine.execSpillBuildDone q s
  | .flushWalkDone slice walk => Sys2Proof.Machine.execFlushWalkDone slice walk s
  | .mcPass slice pass => Sys2Proof.Machine.execMcPass slice pass s
  | .mcSplit slice cls => Sys2Proof.Machine.execMcSplit slice cls s
  | .gateListStart port => Sys2Proof.Machine.execGateListStart port s
  | .gateEntryChange port => Sys2Proof.Machine.execGateEntryChange port s
  | .timeTick ticks => Sys2Proof.Machine.execTimeTick ticks s
  | .timeCheckpoint slips => Sys2Proof.Machine.execTimeCheckpoint slips s
  | .ppsInEdge quarter => Sys2Proof.Machine.execPpsInEdge quarter s
  | .ppsSeenTimeout => Sys2Proof.Machine.execPpsSeenTimeout s
  | .ppsOutRise => Sys2Proof.Machine.execPpsOutRise s
  | .ppsOutFall => Sys2Proof.Machine.execPpsOutFall s
  | .refLock => Sys2Proof.Machine.execRefLock s
  | .refLoss => Sys2Proof.Machine.execRefLoss s
  | .holdValidExpiry => Sys2Proof.Machine.execHoldValidExpiry s
  | .auditCheckpointCount chain => Sys2Proof.Machine.execAuditCheckpointCount chain s
  | .auditCheckpointTimer chain => Sys2Proof.Machine.execAuditCheckpointTimer chain s
  | .checkpointSigned chain engineOk => Sys2Proof.Machine.execCheckpointSigned chain engineOk s
  | .auditBufHandback export_ => Sys2Proof.Machine.execAuditBufHandback export_ s
  | .auditExportFrame export_ => Sys2Proof.Machine.execAuditExportFrame export_ s
  | .postcardFrame slice => Sys2Proof.Machine.execPostcardFrame slice s
  | .sctrCrossing sctr => Sys2Proof.Machine.execSctrCrossing sctr s
  | .sctrCapture sctr capture => Sys2Proof.Machine.execSctrCapture sctr capture s
  | .queuePoll queue read => Sys2Proof.Machine.execQueuePoll queue read s
  | .lapReread queue read => Sys2Proof.Machine.execLapReread queue read s
  | .commandStart queue => Sys2Proof.Machine.execCommandStart queue s
  | .completionWrite cq => Sys2Proof.Machine.execCompletionWrite cq s
  | .cqPoll cq room => Sys2Proof.Machine.execCqPoll cq room s
  | .eventRingPoll queue room => Sys2Proof.Machine.execEventRingPoll queue room s
  | .faultRecordPoll returned => Sys2Proof.Machine.execFaultRecordPoll returned s
  | .strainerBankSwap q => Sys2Proof.Machine.execStrainerBankSwap q s
  | .strainerItemWritten q => Sys2Proof.Machine.execStrainerItemWritten q s
  | .strainerNoticePoll q returned => Sys2Proof.Machine.execStrainerNoticePoll q returned s
  | .irqHoldoffEnd ring => Sys2Proof.Machine.execIrqHoldoffEnd ring s
  | .dmaRetry ring read => Sys2Proof.Machine.execDmaRetry ring read s
  | .faultMessage msg => Sys2Proof.Machine.execFaultMessage msg s
  | .faultWindowEnd source kind gen => Sys2Proof.Machine.execFaultWindowEnd source kind gen s
  | .domainHoldoffExpiry dom => Sys2Proof.Machine.execDomainHoldoffExpiry dom s
  | .domainWakeDone dom failed => Sys2Proof.Machine.execDomainWakeDone dom failed s
  | .supplyDipStart rail => Sys2Proof.Machine.execSupplyDipStart rail s
  | .supplyDipEnd rail minPm durationNs => Sys2Proof.Machine.execSupplyDipEnd rail minPm durationNs s
  | .supplyReset rail => Sys2Proof.Machine.execSupplyReset rail s
  | .thermtrip sensor => Sys2Proof.Machine.execThermtrip sensor s
  | .tapInstruction ir => Sys2Proof.Machine.execTapInstruction ir s
  | .switchTime => Sys2Proof.Machine.execSwitchTime s
  | .refclkLoss g => Sys2Proof.Machine.execRefclkLoss g s
  | .refclkReturn g => Sys2Proof.Machine.execRefclkReturn g s
  | .perstDeassert => Sys2Proof.Machine.execPerstDeassert s
  | .d2dLinkError link err => Sys2Proof.Machine.execD2dLinkError link err s
  | .domainDropDone dom => Sys2Proof.Machine.execDomainDropDone dom s

end Sys2Proof.Machine
end

