-- ==== Sys2Proof/Machine/Reads.lean ====
section
/-! DEFINITION. What the host reads and the pins show: BAR0 and BAR2 (R4, R7, R31, R284, R289, R356, R362, Tables 11.2 to 11.6 and
14.5), IDCODE (R403), the SyncE outputs (R34, R35, R239) and what a port's transmitter sends (R34, R35, R78, R79). Reads change nothing but
RC fields and latches, which the rows TIME_NOW_LATCH, PPS_IN_LATCH, PPS_IN_LATCH_RELEASE, FW_STATUS_LATCH and PWR_RESET_CAUSE_READ move. -/

namespace Sys2Proof.Machine

/-- A register as a read finds it: its offset and its value. -/
structure Shown where
  base : Nat
  value : Nat
deriving DecidableEq, Repr

/-! ### The hub -/

/-- The TAP's IDCODE: the digit of CAP.STEPPING, the member's part code, the manufacturer identity, 1 (R403). -/
def idcode (s : State) : BitVec 32 :=
  let m := s.fuses.member
  pack 32 [(31, 28, fld s.fuses.stepping 3 0), (27, 12, if m = 3 then 0xC24E else if m = 2 then 0xC124 else 0xC248),
    (11, 1, Config.manufacturerId.toNat), (0, 0, 1)]

/-- CAP (Table 11.5). -/
def capRecord (s : State) : BitVec 256 :=
  let bits := fun (n : Nat) (f : Nat → Bool) => ((List.range n).map (fun k => if f k then 2 ^ k else 0)).sum
  let m := s.fuses.member
  pack 256 [(255, 192, s.fuses.serial.toNat), (191, 160, s.dev.bundleVer.toNat), (159, 128, if m = 3 then 0x40000 else 0x1000000),
    (127, 96, if m = 3 then 0 else if m = 2 then 0x1000000 else 0x2000000), (95, 80, if m = 2 then 0x200 else 0x400),
    (79, 64, if m = 3 then 0x28 else if m = 2 then 0x1A else 0x30), (63, 48, bits 16 (sliceThere s)), (47, 44, bits 4 (quadThere s)),
    (43, 40, bits 4 (hbmThere s)), (31, 24, s.fuses.stepping.toNat), (23, 16, 1), (3, 0, m.toNat)]

/-- DEV_MODE (Table 11.6). -/
def devMode (s : State) : BitVec 32 :=
  pack 32 [(31, 31, s.faultN.toNat), (6, 4, modeCode s.dev.prevMode), (2, 0, modeCode s.mode)]

/-- DOM_CFG (Table 1.3). -/
def domCfg (s : State) : BitVec 32 :=
  pack 32 [(31, 16, s.dev.domainId.toNat), (15, 4, s.dev.deviceId.toNat), (0, 0, s.dev.domSet.toNat)]

/-- BOOT_STATUS (Table 16.7). -/
def bootStatus (s : State) : BitVec 64 :=
  let d := s.dev
  pack 64 [(63, 56, d.stRetired.toNat), (55, 48, d.stFailed.toNat), (39, 36, d.bootStep.toNat), (31, 24, d.bootError.toNat),
    (23, 23, d.bootSlot.toNat), (22, 22, d.bootSource.toNat), (21, 21, d.factory.toNat), (20, 20, d.bootSrcStrap.toNat),
    (19, 16, d.resetSrc.toNat), (15, 0, s.fuses.svn)]

/-- The identity, mode and protection region. -/
def identityShown (s : State) (o : Nat) : Option Shown :=
  if o < 0x20 then some ⟨0, (capRecord s).toNat⟩
  else if o = 0x100 then some ⟨0x100, (devMode s).toNat⟩
  else if o = 0x108 then some ⟨0x108, (domCfg s).toNat⟩
  else if inRange o 0x110 0x117 then some ⟨0x110, (verStatus s).toNat⟩
  else if inRange o 0x148 0x14F then some ⟨0x148, (bootStatus s).toNat⟩
  else if inRange o 0x200 0x20F then some ⟨o, (protOf s ((o - 0x200) / 4)).toNat⟩
  else none

/-- The fault window (Table 14.5): FW_STATUS and its counters as they are latched, while they are. -/
def faultShown (s : State) (o : Nat) : Option Shown :=
  let snap := s.faults.latch.getD (fwSnapshot s)
  if o < 0x1008 then some ⟨0x1000, fld snap 63 0⟩
  else if inRange o 0x1010 0x101F then some ⟨0x1010, s.faults.safeCause.toNat⟩
  else if inRange o 0x1020 0x102F then some ⟨0x1020, s.faults.lockCause.toNat⟩
  else if inRange o 0x1030 0x1037 then some ⟨0x1030, s.faults.safeNs.toNat⟩
  else if inRange o 0x1038 0x103F then some ⟨0x1038, s.faults.lockNs.toNat⟩
  else if inRange o 0x1040 0x1087 then some ⟨0x1040, fld snap 639 64⟩
  else if inRange o 0x1100 0x14FF then
    some ⟨o / 16 * 16, ((s.faults.unack[(o - 0x1100) / 16]?).getD 0).toNat⟩
  else if inRange o 0x1800 0x4FFF then some ⟨o / 16 * 16, (Map.val s.faults.log ((o - 0x1800) / 16) 0).toNat⟩
  else none

/-- The Table Access Window (Tables 5.7, 5.8): an operation ends with the write that starts it, so BUSY is 0. -/
def tawShown (s : State) (o : Nat) : Option Shown :=
  if o < 0x5008 then some ⟨0x5000, s.host.taw.cmd.toNat⟩
  else if o = 0x5008 then some ⟨o, s.host.taw.status.toNat + 0x10000 * s.host.taw.overrun.toNat⟩
  else if inRange o 0x5040 0x507F then some ⟨o, (Map.val s.host.taw.data ((o - 0x5040) / 4) 0).toNat⟩
  else none

/-- TIME_STATUS (Table 9.3). -/
def timeStatus (s : State) : BitVec 64 :=
  let t := s.time
  pack 64 [(63, 48, t.steps.toNat), (47, 32, t.sliceOk.toNat), (19, 19, t.ppsSeen.toNat), (18, 18, t.ppsTol.toNat),
    (17, 16, if t.refLock then t.refSel else 0), (15, 15, t.refLock.toNat), (14, 14, t.set.toNat), (2, 0, s.qual)]

/-- The time base: a read finds every write that completed before it (R30). -/
def timeShown (s0 : State) (o : Nat) : Option Shown :=
  let s := s0.timeSettled
  if o < 0x6008 then some ⟨0x6000, s.time.inc.toNat⟩
  else if inRange o 0x6020 0x602F then some ⟨0x6020, s.time.nowLatch.toNat⟩
  else if inRange o 0x6030 0x6037 then some ⟨0x6030, s.time.tbLatch.toNat⟩
  else if inRange o 0x6038 0x603F then some ⟨0x6038, s.time.ctl.toNat⟩
  else if inRange o 0x6040 0x6047 then some ⟨0x6040, (timeStatus s).toNat⟩
  else if inRange o 0x6050 0x605F then some ⟨0x6050, s.time.ppsRead.stamp.toNat⟩
  else if inRange o 0x6060 0x6067 then some ⟨0x6060, s.time.ppsRead.offset.toNat⟩
  else if o = 0x6068 then some ⟨o, s.time.ppsRead.count.toNat⟩
  else none

/-- ADMIN_STATUS (Table 11.8). -/
def adminStatus (s : State) : BitVec 32 :=
  pack 32 [(31, 31, s.host.adminRunning.toNat), (30, 30, s.host.adminHalted.toNat),
    (15, 0, ((s.queue 0).map (·.index.toNat)).getD 0)]

/-- The admin queue registers. -/
def adminShown (s : State) (o : Nat) : Option Shown :=
  if o < 0x7008 then some ⟨0x7000, s.host.adminSq.toNat⟩
  else if o < 0x7010 then some ⟨0x7008, s.host.adminCq.toNat⟩
  else if o < 0x7018 then some ⟨0x7010, s.host.adminEq.toNat⟩
  else if o < 0x7020 then some ⟨0x7018, s.host.adminCtl.toNat⟩
  else if o = 0x7020 then some ⟨0x7020, (adminStatus s).toNat⟩
  else none

/-- Bytes of a bank's items. An item part-way into the area is still left in its bank. -/
def itemBytes (l : List SItem) : Nat := (l.map SItem.len).sum

/-- STR_STATUS (Table 11.18). A flush empties both banks at once, so FLUSHING is 0. -/
def strStatus (r : Strainer) : BitVec 64 :=
  pack 64 [(63, 63, (r.en && r.reads != .stopped).toNat), (62, 62, r.fillBank.toNat), (60, 40, itemBytes r.fill),
    (39, 19, itemBytes (r.drain ++ r.inProgress.toList))]

/-- The registers of a Strainer. -/
def strainerShown (s : State) (q o : Nat) : Option Shown :=
  let b := 0x8000 + 0x100 * q
  let r := s.strainer q
  if o < 8 then some ⟨b, r.areaBase.toNat⟩
  else if o < 0x10 then some ⟨b + 8, r.nringBase.toNat⟩
  else if o < 0x18 then some ⟨b + 0x10, r.cfg.toNat⟩
  else if inRange o 0x20 0x27 then some ⟨b + 0x20, (strStatus r).toNat⟩
  else none

/-- The hub configuration region. -/
def hubShown (s : State) (o : Nat) : Option Shown :=
  let q := o % 32 / 8
  let at_ := 0x9000 + o / 8 * 8
  if o < 8 then some ⟨0x9000, s.tables.learnCfg.toNat⟩
  else if o < 0x10 then some ⟨0x9008, s.tables.flowCfg.toNat⟩
  else if inRange o 0x10 0x2F then some ⟨at_, (s.quad ((o - 0x10) / 8)).flowSeq.toNat⟩
  else if inRange o 0x40 0x47 then some ⟨0x9040, s.audit.cfg.toNat⟩
  else if inRange o 0x50 0x5F then some ⟨0x9050, s.audit.expHdr.toNat⟩
  else if inRange o 0x60 0x7F then some ⟨at_, (audStatus s q).toNat⟩
  else if inRange o 0x80 0x9F then some ⟨at_, (s.chain q).seq.toNat⟩
  else if o = 0xA0 then some ⟨0x90A0, (s.audit.nonce.getD 0).toNat % 2 ^ 32⟩
  else if inRange o 0xC0 0xC7 then some ⟨0x9000 + o, (Map.val s.synce ((o - 0xC0) / 4) 0x10).toNat⟩
  else if inRange o 0x100 0x117 then some ⟨0x9100, s.ioam.toNat⟩
  else none

/-- A dword of CTR_PAGE_USER (R291). -/
def pagesShown (s : State) (o : Nat) : Shown :=
  ⟨o, ((List.range 32).map (fun k => if s.host.pageUser.contains (8 * (o - 0xA000) + k) then 2 ^ k else 0)).sum⟩

/-- PWR_DOM[d] and SUP_STATUS[r] (Table 15.7). -/
def pwrDom (s : State) (d : Nat) : BitVec 64 :=
  if domThere s d then
    pack 64 [(63, 48, votesOf s d), (47, 47, (hostVote s d).isSome.toNat), (42, 40, domCode s d)]
  else pack 64 [(42, 40, 7)]
def supStatus (r : Rail) : BitVec 64 :=
  pack 64 [(63, 63, r.inDip.toNat), (57, 48, r.minPm.toNat), (47, 32, r.dips.toNat), (24, 0, r.duration.toNat)]

/-- The power controller and the supply monitors. -/
def powerShown (s : State) (o : Nat) : Option Shown :=
  if o < 0x180 then some ⟨0xC000 + o / 8 * 8, (pwrDom s (o / 8)).toNat⟩
  else if o = 0x200 then some ⟨0xC200, s.power.holdoffUs.toNat⟩
  else if inRange o 0x400 0x43F && o % 8 == 0 then some ⟨0xC000 + o, (s.rail ((o - 0x400) / 8)).warnPm.toNat⟩
  else if inRange o 0x500 0x53F then some ⟨0xC000 + o / 8 * 8, (supStatus (s.rail ((o - 0x500) / 8))).toNat⟩
  else if o = 0x600 then some ⟨0xC600, s.power.causeRail.toNat + 2 ^ 31 * s.power.causeValid.toNat⟩
  else none

/-! ### Quadrants and slices -/

/-- SPILL_STATUS[q] (Table 7.7). -/
def spillStatus (x : Quad) : BitVec 64 :=
  pack 64 [(63, 63, x.spillReady.toNat), (62, 62, x.spillBuilding.toNat), (61, 36, x.spillFree), (35, 23, Runs.count x.caddy),
    (22, 0, sat 23 x.lost)]

/-- The registers of a port's block; an index that holds no port reads 0. -/
def portShown (s : State) (p o : Nat) : Option Shown :=
  let at_ := portBase p
  let c := o % 32 / 4
  let f := fun (off : Nat) (get : Port → Nat) => some (⟨at_ + off, ((s.port p).map get).getD 0⟩ : Shown)
  if o < 8 then f 0 (·.cfg.toNat)
  else if o < 0x10 then f 8 (·.guard.toNat)
  else if o = 0x10 then f 0x10 (·.attr.toNat)
  else if o = 0x14 then f 0x14 (·.parse.toNat)
  else if inRange o 0x18 0x1F then f 0x18 (·.punt.toNat)
  else if o = 0x20 then f 0x20 (·.flow.toNat)
  else if o = 0x24 then f 0x24 (·.egrCfg.toNat)
  else if inRange o 0x28 0x2F then f 0x28 (·.sample.toNat)
  else if o = 0x30 then f 0x30 (·.egrSched.toNat)
  else if o = 0x34 then f 0x34 (·.ptpCfg.toNat)
  else if inRange o 0x38 0x3F then f 0x38 (·.ptpDelay.toNat)
  else if inRange o 0x40 0x7F then f (o / 8 * 8) (fun x => (x.ipcOf ((o - 0x40) / 8)).reg.toNat)
  else if inRange o 0x80 0x9F then f o (fun x => (Map.val x.polSel c 0).toNat)
  else if inRange o 0xA0 0xBF then f o (fun x => (x.egrOf c).reg.toNat)
  else none

/-- VOQ_DEPTH (Table 7.2); 0 toward an egress index that holds no port. -/
def voqDepth (s : State) (v : Nat) : BitVec 64 :=
  if !voqThere s v then 0
  else
    let x := s.voq v
    pack 64 [(63, 62, match x.state with | .onDie => 0 | .spilling => 1 | .flushing => 2),
      (61, 43, sat 19 (x.onDie.length + x.spill.length)), (42, 26, x.onDieCells), (25, 0, x.spillCount)]

/-- The registers of a sampling counter (Table 13.5). -/
def sctrShown (at_ o : Nat) (x : Sctr) : Option Shown :=
  if o < 8 then some ⟨at_, x.count.toNat⟩
  else if o < 0x10 then
    some ⟨at_ + 8, (pack 64 [(63, 63, x.en.toNat), (62, 62, x.armed.toNat), (31, 16, x.event.toNat), (15, 0, x.queue.toNat)]).toNat⟩
  else if o < 0x18 then some ⟨at_ + 0x10, x.thresh.toNat⟩
  else none

/-- An offset of slice `sl`'s window. -/
def sliceShown (s : State) (sl o : Nat) : Option Shown :=
  let w := 0x800000 + 0x80000 * sl
  let x := s.slice sl
  if o < 0x10000 then portShown s (64 * sl + o / 0x400) (o % 0x400)
  else if o < 0x20000 then some ⟨w + o / 8 * 8, (voqDepth s (8192 * sl + (o - 0x10000) / 8)).toNat⟩
  else if o < 0x20008 then some ⟨w + 0x20000, x.hdrmPool.toNat * 2 ^ 32 + minTotal s sl⟩
  else if o = 0x20008 then some ⟨w + o, x.bufMc.toNat⟩
  else if inRange o 0x20010 0x2002F then some ⟨w + o, (Map.val x.bufClass ((o - 0x20010) / 4) bufClassReset).toNat⟩
  else if inRange o 0x30000 0x303FF then
    sctrShown (w + o / 0x20 * 0x20) (o % 0x20) (sctrOf s (32 * sl + (o - 0x30000) / 0x20))
  else if inRange o 0x31000 0x311FF then
    some ⟨w + o / 8 * 8, ((s.port (64 * sl + (o - 0x31000) / 8)).map (·.telem.toNat)).getD 0⟩
  else if inRange o 0x32000 0x32007 then some ⟨w + 0x32000, x.pcCfg.toNat⟩
  else if inRange o 0x32010 0x3201F then some ⟨w + 0x32010, x.pcHdr.toNat⟩
  else none

/-! ### A read (R4, R284, R362) -/

/-- The register that a read of an offset of BAR0 finds (Table 11.2). -/
def shownAt (s : State) (o : Nat) : Option Shown :=
  if o < 0x1000 then identityShown s o
  else if o < 0x5000 then faultShown s o
  else if o < 0x6000 then tawShown s o
  else if o < 0x7000 then timeShown s o
  else if o < 0x8000 then adminShown s o
  else if o < 0x8400 then strainerShown s ((o - 0x8000) / 0x100) (o % 0x100)
  else if inRange o 0x9000 0x9FFF then hubShown s (o - 0x9000)
  else if inRange o 0xA000 0xBFFF then some (pagesShown s o)
  else if inRange o 0xC000 0xFFFF then powerShown s (o - 0xC000)
  else if inRange o 0x400000 0x43FFFF then
    if o % 0x10000 < 8 then some ⟨o / 8 * 8, (spillStatus (s.quad ((o - 0x400000) / 0x10000))).toNat⟩ else none
  else if inRange o 0x800000 0xFFFFFF then sliceShown s ((o - 0x800000) / 0x80000) (o % 0x80000)
  else none

/-- The power domain of a quadrant's or a slice's window. -/
def windowDom (o : Nat) : Option Nat :=
  if inRange o 0x400000 0x43FFFF then some (36 + (o - 0x400000) / 0x10000)
  else if inRange o 0x800000 0xFFFFFF then some (4 + (o - 0x800000) / 0x80000)
  else none

/-- What a read of BAR0 returns; `none` where the device does not answer. A read of part of a dword returns the whole dword. -/
def readBar0 (s : State) (offset : BitVec 24) : Option (BitVec 32) :=
  let o := offset.toNat / 4 * 4
  if s.mode = .reset ∨ !s.dev.pcieUp then none
  else if s.mode = .lockout ∧ !inRange o 0x1000 0x4FFF then some 0xFFFFFFFF
  else if absentUnit s o || (windowDom o).any (fun d => !s.domOn d) then some 0
  else match shownAt s o with
    | none => some 0
    | some r => some (BitVec.ofNat 32 (r.value / 2 ^ (8 * (o - r.base))))

/-- What a 64-bit read of BAR2 returns (R284, R332). -/
def readBar2 (s : State) (offset : BitVec 28) : Option (BitVec 64) :=
  if s.mode = .reset ∨ !s.dev.pcieUp then none
  else if s.mode = .lockout then some (BitVec.allOnes 64)
  else some (slotValue s (offset.toNat / 4096) (offset.toNat % 4096 / 8))

/-! ### Outputs -/

/-- SYNCE_OUT[k]: the port whose lane 0 clocks it and its divisor; `none` while it is held low (R34, R35, R239). -/
def synceOut (s : State) (k : Nat) : Option (PortNo × Nat) :=
  let v := Map.val s.synce k 0x10
  let p := fld v 25 16
  match s.port p with
  | none => none
  | some x =>
    if s.confRun && bitAt v 31 && x.link.up && (lanesOf p x).all (fun l => (s.lane l).adapt == .track) then
      some (BitVec.ofNat 10 p, fld v 12 0)
    else none

/-- What a port's transmitter sends while no frame is in transmission. -/
inductive LineSignal where
  /-- The lane transmitters are in electrical idle. -/
  | electricalIdle
  /-- The sequences of auto-negotiation and training, or a test pattern. -/
  | lanes
  | idles
  /-- Idles carrying local-fault signalling. -/
  | localFault
  | remoteFault
deriving DecidableEq, Repr

/-- The lanes of a port take no part in a stream: OFF, LISTEN, BACKOFF or RETIRED; or they follow their own sequences. -/
def laneSilent (x : LaneState) : Bool := x == .off || x == .listen || x == .backoff || x == .retired
def laneBusy (x : LaneState) : Bool := x == .autoneg || x == .train || x == .test

/-- The signal of a port: in electrical idle in RESET and BOOT (R35), local fault in SAFE and LOCKOUT (R34); in CONFIGURE and RUN
remote fault in hold-down (R79), and while the link is down the response of the reconciliation sublayer (R78). -/
def lineSignal (s : State) (p : Nat) : LineSignal :=
  match s.port p with
  | none => .electricalIdle
  | some x =>
    let l := (lanesOf p x).map (fun l => (s.lane l).state)
    if s.mode = .reset ∨ s.mode = .boot then .electricalIdle
    else if !s.confRun then .localFault
    else if l.any laneBusy then .lanes
    else if l.all (fun k => k == .off || k == .retired) then .electricalIdle
    else if x.held then .remoteFault
    else if x.link.up then .idles
    else if l.any laneSilent || l.any (· == .align) then .remoteFault
    else match x.link.rs with
      | .localFault => .remoteFault
      | .remoteFault => .idles
      | .none => .idles

end Sys2Proof.Machine
end

