-- ==== Sys2Proof/Safety.lean ====
section
/-! DEFINITION. What claims about the block are said in: when a command of the command set acts and how it completes, the
invariant of the state, and the mode transitions that the manual allows. -/

namespace Sys2Proof.Machine

/-! ### Commands -/

/-- A command in execution has not begun, and none of the checks of R316 that do not depend on its own operands refuses it: the
mode, its handles, and the objects they name. -/
def State.ready (s : State) (row : CmdRow) (sub : Sub) (param : BitVec 384) (e : Exec) : Bool :=
  s.mode != .reset && s.mode != .lockout && s.findExec sub.queue.toNat sub.index == some e && e.opcode.toNat == row.opcode &&
  e.param == param && !e.begun && (firstStatus s row e { act := .wait }).isNone

/-- A command that is ready acts: `u` is the state with its COMMAND votes on the domains `ds` that it reads or writes, `f` the
command that holds them, and every one of those domains is in service (R361). -/
structure Acting (s : State) (row : CmdRow) (sub : Sub) (param : BitVec 384) (ds : List Nat) (e : Exec) (u : State) (f : Exec) :
    Prop where
  ready : s.ready row sub param e = true
  state : u = s.readied sub.queue.toNat ds e
  votes : f = e.voting s ds
  on : u.allOn ds = true

/-- A command completes with OK and its result. -/
def State.done (t : State) (row : CmdRow) (sub : Sub) (e : Exec) (result : BitVec 384) : State :=
  t.finish sub.queue.toNat e .ok row.rlen result

/-- A command completes with another status. -/
def State.refused (t : State) (sub : Sub) (e : Exec) (st : Status) : State := t.finish sub.queue.toNat e st 0 0

/-- A command waits, having begun. -/
def State.begun (t : State) (sub : Sub) (e : Exec) : State :=
  t.modQueue sub.queue.toNat (fun q => { q with
    inExec := q.inExec.map (fun x => if x.index = e.index then { x with begun := true } else x) })

/-! ### The invariant -/

/-- A SYNCE_CFG value as R239 lets it be written: DIV from 16 to 4,096, every reserved bit 0. -/
def synceOk (v : BitVec 32) : Bool := inRange (fld v 12 0) 16 4096 && fld v 15 13 == 0 && fld v 30 26 == 0

/-- What holds in every state: the counters in their canonical form, no generation 0x00 (R12), at most 64 SVN fuses (R378), and
the reserved bits of IOAM_CFG and SYNCE_CFG at 0, with DIV in range (R239, Table 13.8). -/
structure Sound (s : State) : Prop where
  counters : Map.wf 0 s.ctr = true
  gens : s.portGen.all (fun e => e.2 != 0) = true
  svn : s.fuses.svn ≤ 64
  ioam : fld s.ioam 71 64 = 0 ∧ fld s.ioam 31 1 = 0
  synce : s.synce.all (fun e => synceOk e.2) = true

/-! ### Modes -/

/-- The transitions of Table 16.6, from a mode to another. -/
def modeArrow : Mode → Mode → Bool
  | .reset, .boot => true
  | .boot, .boot | .configure, .boot | .run, .boot | .safe, .boot => true
  | .boot, .configure | .run, .configure => true
  | .configure, .run => true
  | .boot, .safe | .configure, .safe | .run, .safe => true
  | .boot, .lockout | .configure, .lockout | .run, .lockout | .safe, .lockout => true
  | _, _ => false

/-- The events in which power is removed: they lead to RESET from every mode (R33, R369, Table 16.6). -/
def removesPower : Instr → Bool
  | .powerOn => true
  | .supplyReset _ => true
  | _ => false

end Sys2Proof.Machine
end

