-- ==== Sys2Proof/Certificates/Slice0/Obligations.lean ====
section
/-! DEFINITION. The statements for the provers. A command of the command set that names no power domain is stated under `State.ready`, one
that reads or writes domains under `Acting`; an event of the block under the condition on the state that lets it happen. -/

open Sys2Proof Sys2Proof.Machine

/-- A step takes the command at the front of the queue and gives the rest of the queue to its rule; with no command waiting the
block idles. The queue and the idling are the model's choice (assumption 60). -/
def Obligations.StepRunsFrontCommand : Prop :=
  (∀ (c : Instr) (rest : List Instr) (s : State), step { s with pending := c :: rest } = exec c { s with pending := rest }) ∧
  (∀ s : State, s.pending = [] → step s = .next s)

/-- No command touches the queue behind it: it leaves the commands that wait as they are, in their order. -/
def Obligations.QueueLeftAlone : Prop :=
  ∀ (c : Instr) (s t : State), exec c s = .next t → t.pending = s.pending

/-- Every step keeps the state sound: the counters in their canonical form, no port generation 0x00 (R14), at most 64 SVN fuses
(R378), and the reserved bits of IOAM_CFG and SYNCE_CFG at 0 with DIV from 16 to 4,096 (R239, Table 13.8). -/
def Obligations.SoundnessKept : Prop :=
  ∀ s t : State, Sound s → step s = .next t → Sound t

/-- The state after reset is sound, and no command waits. -/
def Obligations.ResetIsSound : Prop :=
   Sound State.reset ∧ State.reset.pending = []

/-- Whatever command runs, the mode afterwards is the mode before or one that Table 16.6 leads to from it (R385), unless the command
removes power; a command that removes power leads to RESET from every mode. -/
def Obligations.ModeTransitions : Prop :=
  (∀ (c : Instr) (s t : State), exec c s = .next t → removesPower c = false →
    t.dev.mode = s.dev.mode ∨ modeArrow s.dev.mode t.dev.mode = true) ∧
  (∀ (c : Instr) (s : State), removesPower c = true → ∃ t, exec c s = .next t ∧ t.dev.mode = .reset)

/-- LOCKOUT is left only by removing power (Table 16.6): whatever else happens, the device stays in LOCKOUT. -/
def Obligations.LockoutStays : Prop :=
  ∀ (c : Instr) (s t : State), s.dev.mode = .lockout → removesPower c = false → exec c s = .next t → t.dev.mode = .lockout

/-- What a completion does (R301, R315): the queue's ring owes one more completion, with the command's index and TAG, its status,
and its result where the status is OK; the command leaves execution. Stated for a command that holds no vote and has retired
no handle. -/
def Obligations.CompletionIsOwed : Prop :=
  ∀ (s : State) (n : Nat) (q : Queue) (e : Exec) (st : Status) (rlen : Nat) (result : BitVec 384),
    s.queue n = some q → e.votes = [] → e.retired = false →
    s.finish n e st rlen result = { s with host := { s.host with
      cqs := Map.adjust s.host.cqs q.cq.toNat (fun r => { r with finished := r.finished ++ [
        { queue := BitVec.ofNat 9 n, index := e.index, tag := e.tag, status := st
          rlen := if st = .ok then BitVec.ofNat 8 rlen else 0, result := if st = .ok then result else 0 }] })
      queues := Map.adjust s.host.queues n (fun q => { q with inExec := q.inExec.filter (fun x => x.index ≠ e.index) }) } }

/-- The order of the checks of R316 on a command in execution: BAD_MODE where SAFE was entered and the row does not list it,
BAD_HANDLE, BAD_PARAM, STALE, UNIT_ABSENT, NOT_FOUND, each where it is the first that fails, and the command is then completed
with that status and nothing else. The mode and privilege at the start are decided by COMMAND_START. -/
def Obligations.ChecksInOrder : Prop :=
  ∀ (s : State) (row : CmdRow) (sub : Sub) (param : BitVec 384) (e : Exec) (b : Body),
    s.mode ≠ .reset → s.mode ≠ .lockout → s.findExec sub.queue.toNat sub.index = some e → e.opcode.toNat = row.opcode →
    e.param = param → e.begun = false →
    let badHandle := anyHandle row param hBad
    let absent := anyHandle row param (fun k h => hAbsent s k (fld h 19 0)) || b.absent s
    let missing := anyHandle row param (fun k h => hMissing s k (fld h 19 0))
    (s.mode = .safe → row.modes.contains .safe = false → runCommand row sub param b s = s.refused sub e .badMode) ∧
    (s.mode ≠ .safe ∨ row.modes.contains .safe = true →
      (badHandle = true → runCommand row sub param b s = s.refused sub e .badHandle) ∧
      (badHandle = false → b.bad s = true → runCommand row sub param b s = s.refused sub e .badParam) ∧
      (badHandle = false → b.bad s = false → e.stale = true → runCommand row sub param b s = s.refused sub e .stale) ∧
      (badHandle = false → b.bad s = false → e.stale = false → absent = true →
        runCommand row sub param b s = s.refused sub e .unitAbsent) ∧
      (badHandle = false → b.bad s = false → e.stale = false → absent = false → missing = true →
        runCommand row sub param b s = s.refused sub e .notFound))

/-- NOP, PROT_SET, QUEUE_STATUS_GET and MODE_SET. MODE_SET to the current mode changes nothing; to RUN it needs DOM_CFG and the time
set (R25, R257); to CONFIGURE it leaves RUN; to SAFE it acts as the HALT fault HOST_SAFE_REQUEST does (R325). -/
def Obligations.AdminCommandsComplete : Prop :=
  (∀ (s : State) (sub : Sub) (e : Exec), s.ready Cat.nop sub 0 e = true → exec (.nop sub) s = .next (s.done Cat.nop sub e 0)) ∧
  (∀ (s : State) (sub : Sub) (e : Exec) (value : BitVec 32) (domain : BitVec 2),
    s.ready Cat.protSet sub (pack 384 [(33, 32, domain.toNat), (31, 0, value.toNat)]) e = true → domain ≠ 0 →
    fld value 29 24 = 0 → exec (.protSet sub value domain) s =
      .next (State.done { s with host := { s.host with prot := Map.ins s.host.prot domain.toNat value } } Cat.protSet sub e 0)) ∧
  (∀ (s : State) (sub : Sub) (e : Exec) (queue : Handle) (q : Queue) (c : CRing),
    s.ready Cat.queueStatusGet sub (pack 384 [(31, 0, queue.toNat)]) e = true → s.queue (fld queue 19 0) = some q →
    s.cq q.cq.toNat = some c → q.state ≠ .stopped →
    exec (.queueStatusGet sub queue) s = .next (s.done Cat.queueStatusGet sub e
      (pack 384 [(127, 96, (cqHandle s q.cq.toNat).toNat), (95, 64, sat 32 (stallOf s q / 1000)), (63, 56, c.held.length),
        (55, 48, q.inExec.length), (47, 40, q.lap.toNat),
        (39, 38, if q.state = .halted then 2 else if q.state = .destroying then 3 else if c.stalledAt.isSome then 1 else 0),
        (37, 36, q.domain.toNat), (15, 0, q.index.toNat)]))) ∧
  (∀ (s : State) (sub : Sub) (e : Exec) (target : BitVec 3), s.mode = .configure ∨ s.mode = .run →
    s.ready Cat.modeSet sub (pack 384 [(2, 0, target.toNat)]) e = true →
    (target.toNat = modeCode s.mode →
      exec (.modeSet sub target) s = .next (s.done Cat.modeSet sub e (BitVec.ofNat 384 target.toNat))) ∧
    (target = 3 → s.mode = .configure → s.dev.domSet = true → s.time.set = true →
      exec (.modeSet sub target) s = .next (s.toRun.done Cat.modeSet sub e 3)) ∧
    (target = 3 → s.mode = .configure → s.dev.domSet = false ∨ s.time.set = false →
      exec (.modeSet sub target) s = .next (s.refused sub e .badMode)) ∧
    (target = 2 → s.mode = .run → exec (.modeSet sub target) s = .next (s.toConfigure.done Cat.modeSet sub e 2)) ∧
    (target = 4 → exec (.modeSet sub target) s = .next (((s.raise 0x1001 0x007 0 1 sub.queue.toNat).enterSafe
      (faultMsg s.tbNs 0x1001 0x007 0 1 sub.queue.toNat)).done Cat.modeSet sub e 4)))

/-- QUEUE_CREATE, QUEUE_DESTROY, CQ_CREATE and CQ_DESTROY (R291 to R294, R318): the lowest free number is taken, with counters at 0
and the current generation in the handle; a destroyed queue or ring ends its generation. NO_ROOM, IN_USE, and the wait of a
destroy for what still names its object and for places for its held events (the model's choice, assumption 78). -/
def Obligations.RingCommandsComplete : Prop :=
  (∀ (s : State) (sub : Sub) (e : Exec) (sq eq : Addr) (cq : Handle) (poll : BitVec 30) (dom : BitVec 2) (sqExp eqExp : BitVec 5)
      (vec : BitVec 8) (irq : BitVec 1) (n : Nat),
    s.ready Cat.queueCreate sub (pack 384 [(255, 192, sq.toNat), (191, 128, eq.toNat), (127, 96, cq.toNat), (95, 66, poll.toNat),
      (65, 64, dom.toNat), (63, 59, sqExp.toNat), (58, 54, eqExp.toNat), (53, 46, vec.toNat), (45, 45, irq.toNat)]) e = true →
    badBase sq = false → badPoll poll.toNat = false → badExp sqExp.toNat = false →
    (eqExp = 0 ∨ badExp eqExp.toNat = false ∧ badBase eq = false) →
    (Map.lowestFree s.host.queues 257 0 = none →
      exec (.queueCreate sub sq eq cq poll dom sqExp eqExp vec irq) s = .next (s.refused sub e .noRoom)) ∧
    (Map.lowestFree s.host.queues 257 0 = some n → fld cq 19 0 = 65536 →
      exec (.queueCreate sub sq eq cq poll dom sqExp eqExp vec irq) s = .next (s.refused sub e .inUse)) ∧
    (Map.lowestFree s.host.queues 257 0 = some n → fld cq 19 0 ≠ 65536 →
      exec (.queueCreate sub sq eq cq poll dom sqExp eqExp vec irq) s = .next (State.done
        { s with
          ctr := (s.clearQueueCounters n).ctr
          host := { s.host with queues := Map.ins s.host.queues n (Queue.mk dom sq sqExp poll
            (BitVec.ofNat 9 (fld cq 19 0 - 65536)) .running 0 1 [] false .none []
            (if eqExp = 0 then none else some (EvRing.create eq eqExp vec (irq == 1))) 0 s.tbNs) } }
        Cat.queueCreate sub e (queueHandle s n).toNat))) ∧
  (∀ (s : State) (sub : Sub) (e : Exec) (queue : Handle) (q : Queue),
    s.ready Cat.queueDestroy sub (pack 384 [(31, 0, queue.toNat)]) e = true → fld queue 19 0 ≠ 0 →
    s.queue (fld queue 19 0) = some q →
    (q.inExec = [] → owesCompletions s (fld queue 19 0) q = false → namedByOthers s queue = false → heldFits s q = true →
      exec (.queueDestroy sub queue) s = .next ((s.dropQueue (fld queue 19 0)).done Cat.queueDestroy sub e 0)) ∧
    (q.inExec ≠ [] ∨ owesCompletions s (fld queue 19 0) q = true ∨ namedByOthers s queue = true ∨ heldFits s q = false →
      exec (.queueDestroy sub queue) s = .next ((s.modQueue (fld queue 19 0) (fun q => { q with
        state := .destroying, fetched := [], windowed := false, failedRead := .none })).begun sub e))) ∧
  (∀ (s : State) (sub : Sub) (e : Exec) (base : Addr) (poll : BitVec 30) (exp : BitVec 5) (vec : BitVec 8) (irq : BitVec 1)
      (coal : BitVec 16) (n : Nat),
    s.ready Cat.cqCreate sub (pack 384 [(127, 64, base.toNat), (63, 34, poll.toNat), (33, 29, exp.toNat), (28, 21, vec.toNat),
      (20, 20, irq.toNat), (19, 4, coal.toNat)]) e = true →
    badBase base = false → badPoll poll.toNat = false → badExp exp.toNat = false → Map.lowestFree s.host.cqs 257 0 = some n →
    exec (.cqCreate sub base poll exp vec irq coal) s = .next (State.done
      { s with
        ctr := (s.clearSlots (0x100 + n) 16 17).ctr
        host := { s.host with cqs := Map.ins s.host.cqs n (CRing.mk base exp poll
          { vector := vec, enabled := irq == 1, holdNs := coal.toNat, untilNs := 0, owed := false } 0 1 (2 ^ exp.toNat) .live [] []
          none none none) } }
      Cat.cqCreate sub e (cqHandle s n).toNat)) ∧
  (∀ (s : State) (sub : Sub) (e : Exec) (cq : Handle) (n : Nat),
    s.ready Cat.cqDestroy sub (pack 384 [(31, 0, cq.toNat)]) e = true → n = fld cq 19 0 - 65536 →
    (n = 0 ∨ s.host.queues.any (fun x => x.2.cq.toNat == n) = true →
      exec (.cqDestroy sub cq) s = .next (s.refused sub e .inUse)) ∧
    (n ≠ 0 → s.host.queues.any (fun x => x.2.cq.toNat == n) = false → namedByOthers s cq = false →
      exec (.cqDestroy sub cq) s = .next (State.done
        { s with
          ctr := (s.clearSlots (0x100 + n) 16 17).ctr
          host := { s.host with
            cqs := Map.del s.host.cqs n, cqGen := Map.ins s.host.cqGen n (nextGen (s.cqGenOf n))
            pageUser := s.host.pageUser.filter (· ≠ 0x100 + n) } }
        Cat.cqDestroy sub e 0)))

/-- QUEUE_POLL, LAP_REREAD and DMA_RETRY complete (R286, R298): a read without a window is a poll and counts; a read that fails
waits for its one retry; a second failure halts the queue or stops the ring, with HOST_DMA; an entry at the fetch index with a
wrong LAP is read again, and malformed where its LAP is still wrong. The index that HOST_DMA names for a notice ring is free
(assumption 77). -/
def Obligations.QueueReadsComplete : Prop :=
  (∀ (s : State) (qn : QueueNo) (q : Queue) (es : List Entry),
    s.fetching qn.toNat = some q → q.failedRead = .none → q.fetched.length < 8 →
    (q.windowed = true → exec (.queuePoll qn (some es)) s = .next (s.takeRead qn.toNat q es) ∧
      exec (.queuePoll qn none) s = .next (s.modQueue qn.toNat (fun q => { q with failedRead := .window }))) ∧
    (q.windowed = false → exec (.queuePoll qn (some es)) s = .next ((s.countQueue qn.toNat 3 1).takeRead qn.toNat q es) ∧
      exec (.queuePoll qn none) s =
        .next ((s.countQueue qn.toNat 3 1).modQueue qn.toNat (fun q => { q with failedRead := .window })))) ∧
  (∀ (s : State) (qn : QueueNo) (q : Queue) (e : Entry) (es : List Entry), s.fetching qn.toNat = some q →
    (q.failedRead = .window →
      exec (.dmaRetry qn (.submission (some es))) s = .next (s.takeRead qn.toNat q es)) ∧
    (q.failedRead = .lap →
      exec (.dmaRetry qn (.submission (some (e :: es)))) s = .next (s.takeReread qn.toNat q e)) ∧
    (q.failedRead ≠ .none → exec (.dmaRetry qn (.submission none)) s =
      .next ((s.haltQueue qn.toNat).raise 0x1002 0x005 2 (s.queueGenOf qn.toNat).toNat qn.toNat))) ∧
  (∀ (s : State) (n : QueueNo) (r : CRing) (k : Nat), s.cq n.toNat = some r → s.hostUp = true → r.reads = .retry →
    exec (.dmaRetry n (.completion (some k))) s = .next (s.takeCqRoom n.toNat r k) ∧
    ((∀ x ∈ s.host.queues, x.2.cq.toNat = n.toNat → x.2.state ≠ .running) →
      exec (.dmaRetry n (.completion none)) s = .next ((s.modCq n.toNat (fun r => { r with reads := .stopped })).raise 0x1002 0x005
        2 (s.cqGenOf n.toNat).toNat (65536 + n.toNat)))) ∧
  (∀ (s : State) (n : QueueNo) (q : Queue) (r : EvRing) (k : Nat), s.queue n.toNat = some q → q.events = some r →
    s.hostUp = true → r.reads = .retry →
    exec (.dmaRetry n (.event (some k))) s = .next (s.takeEventRoom n.toNat r k) ∧
    (q.state = .running → exec (.dmaRetry n (.event none)) s = .next (((s.modQueue n.toNat (fun q => { q with
      events := some { r with reads := .stopped } })).haltQueue n.toNat).raise 0x1002 0x005 2 (s.queueGenOf n.toNat).toNat
        n.toNat))) ∧
  (∀ (s : State) (q : QueueNo) (k : Nat), (s.strainer q.toNat).en = true → s.hostUp = true → (s.strainer q.toNat).reads = .retry →
    exec (.dmaRetry q (.notice (some k))) s = .next (s.takeNotices q.toNat k) ∧
    exec (.dmaRetry q (.notice none)) s = .next (((s.modStrainer q.toNat (fun r => { r with reads := .stopped })).drawn).raise
      0x1002 0x005 2 1 (s.free 20).toNat)) ∧
  (∀ (s : State) (qn : QueueNo) (q : Queue) (e : Entry), s.fetching qn.toNat = some q → q.failedRead = .none →
    q.wrongLap = true →
    (entryO e = true → entryLap e ≠ q.lap → exec (.lapReread qn (some e)) s = .next (s.malformed qn.toNat q.index)) ∧
    (entryO e = false ∨ entryLap e = q.lap → exec (.lapReread qn (some e)) s = .next ((s.modQueue qn.toNat (fun q => { q with
      fetched := e :: q.fetched.drop 1, failedRead := .none })).takeWindow qn.toNat)) ∧
    exec (.lapReread qn none) s = .next (s.modQueue qn.toNat (fun q => { q with failedRead := .lap })))

/-- What the reads of a ring leave in the window (R298). A poll of an entry with O = 0 leaves the queue idle; of one with O = 1 the
window becomes what was read, 8 entries at most; a later read extends it. An entry with O = 0 that the window comes to discards
it and every later entry, and counts them; one with O = 1 leaves the window as it is. -/
def Obligations.ReadWindow : Prop :=
  (∀ (s : State) (n : Nat) (q : Queue) (e : Entry) (es : List Entry), s.queue n = some q → q.windowed = false →
    ∃ q', (s.takeRead n q (e :: es)).queue n = some q' ∧ q'.failedRead = .none ∧
      (entryO e = true → q' = { q with fetched := (e :: es).take 8, windowed := true, failedRead := .none }) ∧
      (entryO e = false → q' = { q with failedRead := .none })) ∧
  (∀ (s : State) (n : Nat) (q : Queue) (f : Entry) (fs es : List Entry), s.queue n = some q → q.windowed = true →
    q.fetched = f :: fs → entryO f = true → ∃ q', (s.takeRead n q es).queue n = some q' ∧
      q' = { q with fetched := q.fetched ++ es.take (8 - q.fetched.length), failedRead := .none } ∧
      (q.fetched.length ≤ 8 → q'.fetched.length ≤ 8)) ∧
  (∀ (s : State) (n : Nat) (q : Queue) (e : Entry) (es : List Entry), s.queue n = some q → q.fetched = e :: es →
    (entryO e = true → s.takeWindow n = s) ∧
    (entryO e = false → s.takeWindow n =
      (s.modQueue n (fun q => { q with fetched := [], windowed := false })).countQueue n 4 (es.length + 1)))

/-- COMMAND_START: a well-formed entry leaves the window and its command starts, a malformed one halts the queue, and a ring without
a place for the completion stalls and starts nothing (R298 to R301). IRQ_HOLDOFF_END: a message owed goes at the holdoff's end
and starts the next. ADMIN_CTL (Table 11.8): EN = 1 starts queue 0 and its rings, fields out of range are rejected, EN = 0 stops
queue 0. -/
def Obligations.QueueControlCompletes : Prop :=
  (∀ (s : State) (qn : QueueNo) (q : Queue) (e : Entry) (rest : List Entry),
    s.fetching qn.toNat = some q → q.fetched = e :: rest → q.wrongLap = false →
    (wellFormedRow e = none → exec (.commandStart qn) s = .next (s.malformed qn.toNat q.index)) ∧
    (∀ row, wellFormedRow e = some row → mayStart s qn.toNat q row (bitAt e 496) = true →
      (placeLeft s q.cq.toNat = true → exec (.commandStart qn) s = .next
        (((s.modQueue qn.toNat (fun x => { x with
            fetched := rest, index := (advance q.sqExp q.index q.lap).1, lap := (advance q.sqExp q.index q.lap).2 })).start
          qn.toNat q row q.index (BitVec.ofNat 32 (fld e 63 32)) (BitVec.ofNat 384 (fld e 447 64))).takeWindow qn.toNat)) ∧
      (placeLeft s q.cq.toNat = false → exec (.commandStart qn) s = .next (s.stallRing q.cq.toNat)))) ∧
  ((∀ (s : State) (n : QueueNo) (r : CRing), s.cq n.toNat = some r →
    r.irq.owed = true → r.irq.untilNs ≤ s.tbNs → exec (.irqHoldoffEnd (.completion n)) s = .next
      ((s.modCq n.toNat (fun x => { x with irq := { r.irq with untilNs := s.tbNs + r.irq.holdNs, owed := false } })).msix
        r.irq.vector)) ∧
  (∀ (s : State) (n : QueueNo) (r : EvRing), s.eventRing n.toNat = some r → r.irq.owed = true → r.irq.untilNs ≤ s.tbNs →
    exec (.irqHoldoffEnd (.event n)) s = .next ((s.modQueue n.toNat (fun q => { q with
      events := some { r with irq := { r.irq with untilNs := s.tbNs + r.irq.holdNs, owed := false } } })).msix r.irq.vector)) ∧
  (∀ (s : State) (q : QuadNo), (s.strainer q.toNat).irq.owed = true → (s.strainer q.toNat).irq.untilNs ≤ s.tbNs →
    exec (.irqHoldoffEnd (.notice q)) s = .next ((s.modStrainer q.toNat (fun r => { r with
      irq := { (s.strainer q.toNat).irq with
        untilNs := s.tbNs + (s.strainer q.toNat).irq.holdNs, owed := false } })).msix (s.strainer q.toNat).irq.vector))) ∧
  ((∀ (s : State) (v : BitVec 64), s.hostUp = true → s.host.adminRunning = false →
    (badAdmin s (setFld v 63 63 1) = false →
      exec (.adminEnable v) s = .next ((s.latchLow 0x7018 (setFld v 63 63 1)).adminStart (setFld v 63 63 1))) ∧
    (badAdmin s (setFld v 63 63 1) = true →
      exec (.adminEnable v) s = .next ((s.latchLow 0x7018 (setFld v 63 63 1)).raise 0x1001 0x001 0 1 0x7018))) ∧
  (∀ (s : State) (v : BitVec 64), s.hostUp = true → s.host.adminRunning = true → bitAt s.host.adminCtl 63 = true →
    exec (.adminDisable v) s = .next (State.adminSettle (State.modQueue
      { s with host := { s.host with
        latch := Map.ins s.host.latch 0x7018 ((setFld v 63 63 0).setWidth 32), adminCtl := setFld s.host.adminCtl 63 63 0 } } 0
      (fun q => { q with state := .stopped, fetched := [], windowed := false, failedRead := .none })))))

/-- COMPLETION_WRITE, CQ_POLL, EVENT_RING_POLL and FAULT_RECORD_POLL complete (R301, R303, R304): the oldest completion is written
at the ring's next entry while the host has left it room and none is held before it, and else held; room found by a poll lets
held completions and events go; returned FAULT records acknowledge NOTE and CORRECTED faults. A read that fails is to be
retried (R286). -/
def Obligations.RingWritesComplete : Prop :=
  (∀ (s : State) (n : QueueNo) (r : CRing) (c : Comp) (rest : List Comp),
    s.cq n.toNat = some r → r.finished = c :: rest → s.hostUp = true →
    (r.held = [] → 0 < r.room → exec (.completionWrite n) s = .next
      ((s.writeComp n.toNat { r with finished := rest } c).adminSettle)) ∧
    (r.held ≠ [] ∨ r.room = 0 → exec (.completionWrite n) s = .next
      (s.modCq n.toNat (fun r => { r with finished := rest, held := r.held ++ [c] })))) ∧
  (∀ (s : State) (n : QueueNo) (r : CRing) (room : Nat), s.cq n.toNat = some r → s.hostUp = true → r.reads = .live →
    exec (.cqPoll n (some room)) s = .next (((State.writeHeld r.held.length n.toNat (s.modCq n.toNat (fun r => { r with
      room := max r.room (min room (2 ^ r.exp.toNat)), reads := .live }))).resumeRing n.toNat).adminSettle) ∧
    exec (.cqPoll n none) s = .next (s.modCq n.toNat (fun r => { r with reads := .retry }))) ∧
  (∀ (s : State) (n : QueueNo) (r : EvRing) (room : Nat), s.eventRing n.toNat = some r → s.hostUp = true → r.reads = .live →
    exec (.eventRingPoll n (some room)) s = .next ((s.modQueue n.toNat (fun q => { q with
      events := some { r with room := max r.room (min room (2 ^ r.exp.toNat)), reads := .live } })).deliver n.toNat) ∧
    exec (.eventRingPoll n none) s = .next (s.modQueue n.toNat (fun q => { q with
      events := some { r with reads := .retry } }))) ∧
  (∀ (s : State) (r : EvRing) (returned : Nat), s.eventRing 0 = some r → s.hostUp = true → r.reads = .live →
    ∃ t, exec (.faultRecordPoll (some returned)) s = .next t ∧
    t.faults.posted = s.faults.posted.drop returned ∧
    t.faults.implicit = (s.faults.posted.take returned).foldl (fun l m => if msgClass m < 2 then l.erase m else l)
      s.faults.implicit ∧
    t = { s with faults := { s.faults with posted := t.faults.posted, implicit := t.faults.implicit } })

/-- The Strainer's rows complete (R307 to R310): STR_CFG takes EN = 1 with fields in range, in CONFIGURE or RUN, with the area, the
notices and ARRIVAL started afresh; clearing EN is taken at once; FLUSH empties both banks and counts what it discards; the
banks swap when the draining one is empty; an item written whole is followed by its notice; returned notices free their area. -/
def Obligations.StrainersComplete : Prop :=
  (∀ (s : State) (q : QuadNo) (v : BitVec 64), s.hostUp = true → quadThere s q.toNat = true → s.confRun = true →
    (s.strainer q.toNat).en = false → badStrCfg (s.strainer q.toNat) (setFld v 63 63 1) = false →
    exec (.strainerEnable q v) s = .next ((s.latchLow (0x8010 + 0x100 * q.toNat) (setFld v 63 63 1)).modStrainer q.toNat (fun r =>
      Strainer.startItem { r with
        cfg := setFld (setFld v 63 63 1) 13 0 0, areaOff := 0, areaUsed := [], room := 2 ^ fld (setFld v 63 63 1) 57 53
        reads := .live, index := 0, lap := 1, arrival := 0, dropped := 0
        irq := { vector := BitVec.ofNat 8 (fld (setFld v 63 63 1) 52 45), enabled := bitAt (setFld v 63 63 1) 44
                 holdNs := 1000, untilNs := 0, owed := false } }))) ∧
  (∀ (s : State) (q : QuadNo) (v : BitVec 64), s.hostUp = true → quadThere s q.toNat = true → (s.strainer q.toNat).en = true →
    exec (.strainerDisable q v) s = .next (s.modStrainer q.toNat (fun r => { r with cfg := setFld r.cfg 63 63 0 })) ∧
    exec (.strainerEnable q v) s = .next (s.raise (0x1010 + q.toNat) 0x001 0 1 (0x8010 + 0x100 * q.toNat))) ∧
  (∀ (s : State) (q : QuadNo), s.hostUp = true → quadThere s q.toNat = true →
    exec (.flush q) s = .next (((s.bump (0x34 + q.toNat) 2 ((s.strainer q.toNat).fill.length +
      (s.strainer q.toNat).drain.length)).bump (0x34 + q.toNat) 3 (if (s.strainer q.toNat).inProgress.isSome then 1 else 0)).modStrainer
        q.toNat (fun r => { r with fill := [], drain := [], inProgress := none }))) ∧
  (∀ (s : State) (q : QuadNo), (s.strainer q.toNat).en = true → s.hostUp = true → (s.strainer q.toNat).drain = [] →
    (s.strainer q.toNat).inProgress = none → (s.strainer q.toNat).fill ≠ [] →
    exec (.strainerBankSwap q) s = .next (s.modStrainer q.toNat (fun r =>
      Strainer.startItem { r with drain := r.fill, fill := [], fillBank := !r.fillBank }))) ∧
  (∀ (s : State) (q : QuadNo) (i : SItem) (r : Strainer), r = s.strainer q.toNat → r.inProgress = some i → s.hostUp = true →
    r.irq.enabled = false → exec (.strainerItemWritten q) s = .next (((((s.emit (.dma
      (r.areaBase + BitVec.ofNat 64 (itemOff r i.len)) (leBytes 64 i.header.toNat ++ padTo 64 i.bytes))).emit
      (.record (entryAddr r.nringBase r.index) (noticeEntry r i (itemOff r i.len)))).bump (0x34 + q.toNat) 0 1).bump
        (0x34 + q.toNat) 1 i.len).modStrainer q.toNat (fun _ => Strainer.startItem { r with
          inProgress := none, areaOff := itemOff r i.len + i.len, areaUsed := r.areaUsed ++ [(itemOff r i.len, i.len)]
          room := r.room - 1, index := (advance (BitVec.ofNat 5 (fld r.cfg 57 53)) r.index r.lap).1
          lap := (advance (BitVec.ofNat 5 (fld r.cfg 57 53)) r.index r.lap).2, dropped := 0 }))) ∧
  (∀ (s : State) (q : QuadNo) (n : Nat), (s.strainer q.toNat).en = true → s.hostUp = true → (s.strainer q.toNat).reads = .live →
    n ≤ (s.strainer q.toNat).areaUsed.length →
    exec (.strainerNoticePoll q (some n)) s = .next (s.modStrainer q.toNat (fun r =>
      Strainer.startItem { r with areaUsed := r.areaUsed.drop n, room := r.room + n, reads := .live })) ∧
    exec (.strainerNoticePoll q none) s = .next (s.modStrainer q.toNat (fun r => { r with reads := .retry })))

/-- The fault commands complete (R329, R347, R348): FAULT_ACK takes an unacknowledged DEGRADE or HALT fault off the list, with its
place where it was still to be posted, and finds no other; FAULT_LIST_GET writes the list, 16 bytes a message; FAULT_WINDOW_SET
takes its setting and closes the kind's open windows; FAULT_INJECT sends its message with INJECTED set. -/
def Obligations.FaultCommandsComplete : Prop :=
  (∀ (s : State) (sub : Sub) (e : Exec) (m : BitVec 128), s.ready Cat.faultAck sub (m.setWidth 384) e = true → 2 ≤ msgClass m →
    (m ∈ s.faults.unack → exec (.faultAck sub m) s = .next (State.done { s with faults := { s.faults with
      unack := s.faults.unack.erase m, waiting := s.faults.waiting.erase m } } Cat.faultAck sub e 0)) ∧
    (m ∉ s.faults.unack → exec (.faultAck sub m) s = .next (s.refused sub e .notFound))) ∧
  (∀ (s : State) (sub : Sub) (e : Exec) (buf : Addr) (len : BitVec 32),
    s.ready Cat.faultListGet sub (pack 384 [(63, 0, buf.toNat), (95, 64, len.toNat)]) e = true → misaligned buf = false →
    16 * s.faults.unack.length ≤ len.toNat → exec (.faultListGet sub buf len) s = .next (State.done
      (s.writeBuf buf (s.faults.unack.flatMap (fun m => leBytes 16 m.toNat))) Cat.faultListGet sub e
      (BitVec.ofNat 384 s.faults.unack.length))) ∧
  (∀ (s : State) (sub : Sub) (e : Exec) (kind : BitVec 10) (window : BitVec 16) (thresh : BitVec 8),
    s.ready Cat.faultWindowSet sub (pack 384 [(9, 0, kind.toNat), (31, 16, window.toNat), (39, 32, thresh.toNat)]) e = true →
    windowedKind kind.toNat = true → window ≠ 0 → exec (.faultWindowSet sub kind window thresh) s = .next (State.done
      { s with faults := { s.faults with
        settings := Map.ins s.faults.settings kind.toNat (pack 24 [(23, 8, window.toNat), (7, 0, thresh.toNat)])
        windows := s.faults.windows.filter (fun w => w.kind ≠ kind) } } Cat.faultWindowSet sub e 0)) ∧
  (∀ (s : State) (sub : Sub) (e : Exec) (m : BitVec 128), s.ready Cat.faultInject sub (m.setWidth 384) e = true →
    badInject s m = false → exec (.faultInject sub m) s = .next (State.done { s with faults := { s.faults with
      transit := s.faults.transit ++ [setFld m 18 18 1] } } Cat.faultInject sub e 0))

/-- FAULT_MESSAGE, FAULT_WINDOW_END and FW_STATUS_LATCH complete (R346 to R356): the next message sent is collected, the one with the
lowest SOURCE of those of its hub clock, or one that its unit has detected; a final class of HALT leads BOOT, CONFIGURE and RUN to
SAFE, LOCKOUT leads to LOCKOUT, and a lower class leaves the mode; a window ends with its time; a read of FW_STATUS, in LOCKOUT too,
latches it and the counters behind it, or, where the host reads on, the nine counters are returned as latched and the latch ends:
which of the two is a free value (assumption 88). -/
def Obligations.CollectorRowsComplete : Prop :=
  (∀ (s : State) (m : BitVec 128), s.mode ≠ .reset → s.nextMessage = some m →
    exec (.faultMessage none) s =
      .next (State.collect { s with faults := { s.faults with transit := s.faults.transit.erase m } } m) ∧
    m ∈ s.faults.transit ∧ (∀ f, s.faults.transit.head? = some f → fld m 127 96 = fld f 127 96 ∧ msgSource m ≤ msgSource f)) ∧
  (∀ (s : State) (m : BitVec 128), s.mode ≠ .reset → m ∉ s.faults.transit → sendable s m = true →
    exec (.faultMessage (some m)) s = .next (s.collect m) ∧
    (msgClass (s.judge m).2.1 = 3 → (s.mode = .boot ∨ s.mode = .configure ∨ s.mode = .run) → (s.collect m).dev.mode = .safe) ∧
    (msgClass (s.judge m).2.1 = 4 → (s.collect m).dev.mode = .lockout) ∧
    (msgClass (s.judge m).2.1 < 3 → (s.collect m).dev.mode = s.dev.mode)) ∧
  (∀ (s : State) (src : BitVec 16) (kind : BitVec 10) (gen : BitVec 8), ∃ ws,
    exec (.faultWindowEnd src kind gen) s = .next { s with faults := { s.faults with windows := ws } } ∧
    ∀ w, w ∈ ws ↔ w ∈ s.faults.windows ∧ (s.tbNs < w.endNs ∨ w.source ≠ src ∨ w.kind ≠ kind ∨ w.gen ≠ gen)) ∧
  (∀ s : State, s.mode ≠ .reset → s.dev.pcieUp = true →
    ∃ (l : List Out) (x : Option (BitVec 640)), exec .fwStatusLatch s =
      .next { s with faults := { s.faults with latch := x }, out := s.out ++ l, draws := s.draws + 1 } ∧
      l.head? = some (.read 0x1000 ((fwStatus s).setWidth 128)) ∧
      (x = some (fwSnapshot s) ∧ l.length = 1 ∨ x = none ∧ l.length = 10))

/-- The class a message ends at (R349): from a class it rises one level at a time, each level it passes being one at which a
condition of R349 holds; it stops at the first at which none holds, never falls, and never passes LOCKOUT. -/
def Obligations.Escalation : Prop :=
  ∀ (s : State) (m : BitVec 128) (cls : Nat), cls ≤ 4 →
    cls ≤ finalClass s m 4 cls ∧ finalClass s m 4 cls ≤ 4 ∧ escalates s m (finalClass s m 4 cls) = false ∧
    ∀ k, cls ≤ k → k < finalClass s m 4 cls → escalates s m k = true

/-- The window of a fault (R347): the first occurrence opens one, later ones count in it, and the one that exceeds THRESH closes it
and is promoted. -/
def Obligations.FaultWindows : Prop :=
  (∀ (s : State) (m : BitVec 128) (w : FWindow), (openWindows s).find? (FWindow.of m) = some w →
    ((windowOf s (msgKind m)).2 < w.count + 1 → (countOccurrence s m).2 = true ∧
      ∀ x ∈ (countOccurrence s m).1.faults.windows, FWindow.of m x = false) ∧
    (w.count + 1 ≤ (windowOf s (msgKind m)).2 → (countOccurrence s m).2 = false ∧
      (countOccurrence s m).1.faults.windows = (openWindows s).map (fun x =>
        if FWindow.of m x then { x with count := x.count + 1 } else x))) ∧
  (∀ (s : State) (m : BitVec 128), (openWindows s).find? (FWindow.of m) = none → (countOccurrence s m).2 = false ∧
    ∃ x ∈ (countOccurrence s m).1.faults.windows, FWindow.of m x = true ∧ x.count = 1 ∧
      x.endNs = s.tbNs + 1000000 * (windowOf s (msgKind m)).1)

/-- PWR_VOTE and PWR_STATUS_GET complete (R329, R361, Table 15.6): a take adds the host's vote, and completes with VOTES, at once
where the domain is ready and else when it reports ready; a withdrawal takes it away, and NOT_FOUND where the host holds none.
-/
def Obligations.PowerCommandsComplete : Prop :=
  (∀ (s u : State) (sub : Sub) (e : Exec) (h : Handle) (d : Nat),
    s.ready Cat.pwrVote sub (pack 384 [(31, 0, h.toNat), (32, 32, 1)]) e = true → d = fld h 19 0 → 3 ≤ d →
    hostVote s d = none → u = s.takeVote d { kind := 9, client := queueHandle s sub.queue.toNat } →
    (u.domOn d = true → exec (.pwrVote sub h 1) s = .next (u.done Cat.pwrVote sub e (votesOf u d))) ∧
    (u.domOn d = false → exec (.pwrVote sub h 1) s = .next (u.begun sub e))) ∧
  (∀ (s : State) (sub : Sub) (e : Exec) (h : Handle) (d : Nat),
    s.ready Cat.pwrVote sub (pack 384 [(31, 0, h.toNat), (32, 32, 0)]) e = true → d = fld h 19 0 → 3 ≤ d →
    (∀ v, hostVote s d = some v → exec (.pwrVote sub h 0) s = .next ((s.dropVote d v).done Cat.pwrVote sub e
      (votesOf (s.dropVote d v) d))) ∧
    (hostVote s d = none → exec (.pwrVote sub h 0) s = .next (s.refused sub e .notFound))) ∧
  (∀ (s : State) (sub : Sub) (e : Exec) (h : Handle), s.ready Cat.pwrStatusGet sub (pack 384 [(31, 0, h.toNat)]) e = true →
    exec (.pwrStatusGet sub h) s = .next (s.done Cat.pwrStatusGet sub e (pwrStatus s (fld h 19 0))))

/-- A domain's holdoff and drop, supply dips, and the reset cause (R362 to R370): a holdoff that has run out starts the drop, with a
new canary but for an HBM stack, and what the domain holds powered off; a drop done leads to OFF where no vote is held; a dip's end counts it, keeps
its lowest rail reading and its length, and raises SUPPLY_DIP; PWR_RESET_CAUSE clears when read. Domain numbers end at 47 (Table
15.1): the block stops on an event of a domain that no member has. -/
def Obligations.PowerRowsComplete : Prop :=
  ((∀ (s : State) (d : BitVec 6), d.toNat < 48 → s.mode = .boot ∨ s.mode = .configure ∨ s.mode = .run →
    (s.dom d.toNat).state = .holdoff → (s.dom d.toNat).holdoffEnd ≤ s.tbNs →
    (inRange d.toNat 40 43 = false → ∃ t, exec (.domainHoldoffExpiry d) s = .next t ∧ t.draws = s.draws + 1 ∧
      (t.dom d.toNat).state = .dropping ∧ (t.dom d.toNat).canary = s.free 32 ∧ (t.dom d.toNat).cause = none) ∧
    (inRange d.toNat 40 43 = true → exec (.domainHoldoffExpiry d) s = .next
      ((s.powerOff d.toNat).modDom d.toNat (fun m => { m with state := .dropping, cause := none })))) ∧
  (∀ (s : State) (d : BitVec 6), d.toNat < 44 → s.mode ≠ .reset → s.mode ≠ .lockout → (s.dom d.toNat).state = .dropping →
    (s.dom d.toNat).votes = [] →
    exec (.domainDropDone d) s = .next (s.modDom d.toNat (fun m => { m with state := .off }))) ∧
  (∀ (s : State) (d : BitVec 6), 44 ≤ d.toNat → d.toNat < 48 → s.mode ≠ .reset → s.mode ≠ .lockout →
    (s.dom d.toNat).state = .dropping → (s.dom d.toNat).votes = [] → exec (.domainDropDone d) s =
      .next ((s.modDom d.toNat (fun m => { m with state := .off })).dropVote (d.toNat - 4) parentVote)) ∧
  (∀ (s : State) (d : BitVec 6) (v : Vote) (t : Nat), d.toNat < 48 → s.mode ≠ .reset → s.mode ≠ .lockout →
    (s.dom d.toNat).state = .dropping → (s.dom d.toNat).votes ≠ [] → (s.dom d.toNat).cause = some (v, t) →
    exec (.domainDropDone d) s = .next (s.startWake d.toNat v t)) ∧
  (∀ (s : State) (r : BitVec 3), s.mode ≠ .reset →
    exec (.supplyDipStart r) s = .next ((s.mark false).modRail r.toNat (fun x => { x with inDip := true }))) ∧
  (∀ (s : State) (r : BitVec 3) (pm : BitVec 10) (ns : Nat), s.mode ≠ .reset → (s.rail r.toNat).inDip = true →
    exec (.supplyDipEnd r pm ns) s = .next (State.raise
      { s.mark false with power := { s.power with
        dipEndNs := some s.tbNs
        rails := Map.ins s.power.rails r.toNat { s.rail r.toNat with
          inDip := false, minPm := pm, duration := BitVec.ofNat 25 (min ns (2 ^ 25 - 1))
          dips := if (s.rail r.toNat).dips = 0xFFFF then (s.rail r.toNat).dips else (s.rail r.toNat).dips + 1 } } }
      0x1007 0x0A0 0 1 (r.toNat * 2 ^ 45 + min ns (2 ^ 25 - 1) * 2 ^ 20 + pm.toNat * 2 ^ 8))) ∧
  (∀ s : State, s.hostUp = true → exec .pwrResetCauseRead s = .next
    { s with power := { s.power with causeValid := false, causeRail := 0 }
             out := s.out ++ [.read 0xC600 (pack 128 [(31, 31, s.power.causeValid.toNat), (2, 0, s.power.causeRail.toNat)])] })) ∧
  (∀ (s : State) (d : BitVec 6) (failed : List ScrubbedBank), 48 ≤ d.toNat →
    exec (.domainHoldoffExpiry d) s = .fault .noSuchUnit ∧ exec (.domainDropDone d) s = .fault .noSuchUnit ∧
    exec (.domainWakeDone d failed) s = .fault .noSuchUnit)

/-- Power-on and supply reset complete in every mode (R33, R369): the device enters RESET; time, faults, tables, versions, audit,
ports, counters and the host interface take their reset values, and the fuses and the flash stay. PWR_RESET_CAUSE names the rail
of a supply reset other than VDD_AON's, and THERMTRIP_N stays asserted over such a reset (R407). -/
def Obligations.PowerResetsComplete : Prop :=
  (∀ s : State, ∃ t, exec .powerOn s = .next t ∧ t.dev.mode = .reset ∧ t.dev.resetSrc = 1 ∧ t.dev.thermtrip = false ∧
    t.power.causeValid = false ∧ t.fuses = s.fuses ∧ t.dev.flashA = s.dev.flashA ∧ t.dev.flashB = s.dev.flashB ∧
    t.dev.resetN = s.dev.resetN ∧ t.dev.perstN = s.dev.perstN ∧ t.dev.refclk = s.dev.refclk ∧
    t.time = TimeState.reset ∧ t.faults = FaultState.reset ∧ t.tables = TableState.reset ∧ t.vers = VerState.reset ∧
    t.audit = AuditState.reset ∧ t.ports = [] ∧ t.portGen = [] ∧ t.ctr = [] ∧ t.host = HostState.reset) ∧
  (∀ (s : State) (rail : BitVec 3), ∃ t, exec (.supplyReset rail) s = .next t ∧ t.dev.mode = .reset ∧ t.dev.resetSrc = 2 ∧
    (rail = 0 → t.power.causeValid = false ∧ t.dev.thermtrip = false) ∧
    (rail ≠ 0 → t.power.causeValid = true ∧ t.power.causeRail = rail ∧ t.dev.thermtrip = s.dev.thermtrip) ∧
    t.fuses = s.fuses ∧ t.dev.flashA = s.dev.flashA ∧ t.dev.flashB = s.dev.flashB ∧
    t.time = TimeState.reset ∧ t.faults = FaultState.reset ∧ t.tables = TableState.reset ∧ t.vers = VerState.reset ∧
    t.audit = AuditState.reset ∧ t.ports = [] ∧ t.ctr = [] ∧ t.host = HostState.reset)

/-- What a warm reset keeps and what it does not (R373): the fuses, the flash and the pins, DOM_CFG, the fault log and the cause
records, the version counter and the time, as they are once the frames in transmission have ended (R77). No fault waits for
acknowledgement, no port is left, and queue 0 and ring 0 stand with EN = 0. -/
def Obligations.WarmResetKeeps : Prop :=
  ∀ (s u : State) (src : BitVec 4), s.mode ≠ .reset → s.mode ≠ .lockout → u = (if s.mode = .run then s.endAllTx else s) →
    ∃ t, t = s.warmReset src ∧
      t.dev.mode = .boot ∧ t.dev.prevMode = s.dev.mode ∧ t.dev.resetSrc = src ∧ t.fuses = u.fuses ∧ t.dev.flashA = u.dev.flashA ∧
      t.dev.flashB = u.dev.flashB ∧ t.dev.domainId = u.dev.domainId ∧ t.dev.deviceId = u.dev.deviceId ∧
      t.dev.domSet = u.dev.domSet ∧ t.dev.thermtrip = u.dev.thermtrip ∧ t.faults.log = u.faults.log ∧
      t.faults.safeCause = u.faults.safeCause ∧ t.faults.lockCause = u.faults.lockCause ∧ t.faults.unack = [] ∧
      t.vers.nextVer = u.vers.nextVer ∧ t.time.set = u.time.set ∧ t.tables = TableState.reset ∧ t.ports = [] ∧
      t.host.queues = [(0, Queue.admin)] ∧ t.host.cqs = [(0, CRing.admin)] ∧ t.host.adminRunning = false

/-- The reset sources complete (Table 16.1, R372, R386): RESET_N falling, PERST# falling in CONFIGURE, RUN and SAFE, and RST_CTL
written with its key cause a warm reset; RST_CTL without it is rejected; RESET_N rising lets BOOT go on, or RESET be left; power
good lets RESET be left into BOOT. -/
def Obligations.ResetSourcesComplete : Prop :=
  (∀ s : State, s.dev.resetN = true →
    exec .resetNLow s = .next (State.warmReset { s with dev := { s.dev with resetN := false } } 3)) ∧
  (∀ s : State, s.mode = .boot → s.dev.bootStep = 0 → ∃ t, exec .resetNRise s = .next t ∧
    t = { s with dev := { s.dev with resetN := true, tapIr := t.dev.tapIr, bootStep := 2 } } ∧
    (3 ≤ s.dev.tapIr ∧ s.dev.tapIr ≤ 7 → t.dev.tapIr = 0x01)) ∧
  (∀ s : State, s.mode = .reset → s.dev.railsGood = true → bitAt s.dev.refclk 8 = true → ∃ t, exec .resetNRise s = .next t ∧
    t.dev.mode = .boot ∧ t.dev.bootStep = 1) ∧
  (∀ s : State, s.dev.perstN = true → s.mode = .configure ∨ s.mode = .run ∨ s.mode = .safe → exec .perstAssert s =
    .next (State.warmReset { s with dev := { s.dev with perstN := false, pcieUp := false } } 4)) ∧
  (∀ s : State, s.dev.perstN = true → s.mode = .boot → exec .perstAssert s =
    .next (State.resetHostIf { s with dev := { s.dev with perstN := false, pcieUp := false } } 2)) ∧
  (∀ s : State, s.mode = .configure ∨ s.mode = .run ∨ s.mode = .safe ∨ s.mode = .boot ∧ 2 ≤ s.dev.bootStep.toNat →
    exec .perstDeassert s = .next { s with dev := { s.dev with perstN := true, pcieUp := true } }) ∧
  (∀ (s : State) (v : BitVec 32), s.hostUp = true →
    (fld v 31 16 = 0xB007 → bitAt v 0 = true → exec (.rstCtlWrite v) s = .next (s.warmReset 5)) ∧
    (fld v 31 16 ≠ 0xB007 ∨ bitAt v 0 = false → exec (.rstCtlWrite v) s = .next (s.raise 0x1001 0x001 0 1 0x140))) ∧
  (∀ s : State, s.mode = .reset → s.dev.resetN = true → bitAt s.dev.refclk 8 = true → ∃ t, exec .resetExit s = .next t ∧
    t.dev.mode = .boot ∧ t.dev.bootStep = 1 ∧ t.dev.railsGood = true)

/-- HOST_IF_RESET completes (R287) outside RESET and LOCKOUT: queue 0 and ring 0 stand with EN = 0, a halted queue 0 still halted,
every other queue and ring is gone, no page belongs to users, the MSI-X table and posted audit buffers are gone, and the mode
stays. The end of a wake, the references, THERMTRIP_N, the TAP and die-to-die links complete (R21, R366, R367, R394, R403, R407):
a bank whose canary or whose words failed is cleared, each block with such banks raises RETENTION_FAIL, and the wake is recorded.
-/
def Obligations.ResetsAndPinsComplete : Prop :=
  (∀ (s : State) (c : HostResetCause), s.mode ≠ .reset → s.mode ≠ .lockout →
    ∃ t, exec (.hostIfReset c) s = .next t ∧ t.dev.mode = s.dev.mode ∧
      t.host.queues = (s.host.queues.filter (fun e => e.1 = 0)).map (fun e => (e.1, e.2.idle)) ∧
      t.host.cqs = (s.host.cqs.filter (fun e => e.1 = 0)).map (fun e => (e.1, e.2.idle)) ∧
      (∀ q : Queue, q.idle.inExec = [] ∧ q.idle.fetched = [] ∧ (q.idle.state = .halted ↔ q.state = .halted)) ∧
      t.host.adminRunning = false ∧ t.host.msixTable = [] ∧
      bitAt t.host.adminCtl 63 = false ∧ t.host.pageUser = [] ∧
      (∀ n x, Map.find t.audit.chains n = some x → x.posted = [] ∧ x.buf = none)) ∧
  ((∀ (s : State) (d : BitVec 6) (banks l : List ScrubbedBank) (t : Tbl (Nat × BitVec 32)), d.toNat < 44 →
    s.mode = .configure ∨ s.mode = .run ∨ s.mode = .safe →
    domThere s d.toNat = true → (s.dom d.toNat).state = .waking →
    l = banks.filter (fun b => blockIn d.toNat b && (b.bad || b.canary != Config.canaryWords (s.dom d.toNat).canary)) →
    t = failedBlocks l →
    exec (.domainWakeDone d banks) s = .next (((t.foldl (fun a b => a.raiseRetention d.toNat b)
      (l.foldl (fun a b => a.loseBanks d.toNat b) s)).reportOn d.toNat t.length (contentMask t)).afterWake d.toNat)) ∧
  (∀ (s : State) (d : BitVec 6), d.toNat < 44 → s.mode = .boot → domThere s d.toNat = true → (s.dom d.toNat).state = .waking →
    exec (.domainWakeDone d []) s = .next ((s.reportOn d.toNat 0 0).afterWake d.toNat)) ∧
  (∀ (s : State) (sensor : BitVec 4), exec (.thermtrip sensor) s = .next { s with dev := { s.dev with thermtrip := true } }) ∧
  (∀ (s : State) (ir : BitVec 8), ∃ t, exec (.tapInstruction ir) s = .next t ∧
    t = { s with dev := { s.dev with tapIr := t.dev.tapIr } } ∧
    ((ir = 0x01 ∨ ir = 0x02) ∨ (3 ≤ ir ∧ ir ≤ 7 ∧ s.dev.resetN = false) → t.dev.tapIr = ir) ∧
    (ir = 0 ∨ 7 < ir ∨ (3 ≤ ir ∧ s.dev.resetN = true) → t.dev.tapIr = 0xFF)) ∧
  (∀ s : State, exec (.refclkLoss 8) s = .next { s with dev := { s.dev with refclk := setFld s.dev.refclk 8 8 0 } }) ∧
  (∀ (s : State) (g : BitVec 4), g.toNat < 8 → s.mode ≠ .reset → s.mode ≠ .lockout →
    exec (.refclkLoss g) s = .next (foldNats (chipletPorts s g.toNat) (fun a p =>
      if (a.port p).any (·.enabled) && a.domOn (20 + p / 64) then a.listen p else a)
      { s with dev := { s.dev with refclk := setFld s.dev.refclk g.toNat g.toNat 0 } }) ∧
    exec (.refclkReturn g) s = .next (foldNats (chipletPorts s g.toNat) (fun a p => a.tryTrain p)
      { s with dev := { s.dev with refclk := setFld s.dev.refclk g.toNat g.toNat 1 } })) ∧
  (∀ (s : State) (link : D2dLink) (lane : BitVec 8), s.mode ≠ .reset → d2dThere s link = true →
    exec (.d2dLinkError link (.crcCorrected lane)) s = .next (s.raise (d2dSource link) 0x048 1 1 lane.toNat) ∧
    exec (.d2dLinkError link (.laneRepaired lane)) s = .next (s.raise (d2dSource link) 0x049 2 1 lane.toNat) ∧
    exec (.d2dLinkError link .linkFailed) s = .next ((s.loseOnLink link).raise (d2dSource link) 0x04A 3 1 0)))

/-- SELF_TEST, BUNDLE_LOAD, BUNDLE_INFO_GET and FLASH_UPDATE complete (R330, R376 to R384): a test reports the units tested and
failed; a verified bundle is loaded only while BOOT waits for one, and the command completes with OK however its load ends; BUSY,
DMA_ERROR and BAD_SIGNATURE turn the others away; a flash update erases a slot, and at its end has written it. BOOT_START takes the straps and runs the self-test, or raises its fault on a bad OTP;
BOOT_BUNDLE_LOADED loads the image of the slot chosen: a load that ends well enters CONFIGURE, and one whose read-back or
chiplets fail keeps BOOT, with its error code, until its fault is collected. -/
def Obligations.FirmwareComplete : Prop :=
  ((∀ (s : State) (sub : Sub) (e : Exec) (buf : Addr) (len : BitVec 32) (found : SelfTestResult) (r : State × Tested),
    s.ready Cat.selfTest sub (pack 384 [(63, 0, buf.toNat), (95, 64, len.toNat)]) e = true → misaligned buf = false →
    16448 ≤ len.toNat → r = s.testMemories.judgeTest found → exec (.selfTest sub buf len found) s = .next (State.done
      (r.1.reloadStores.writeBuf buf (testBuffer s found.tested r.2)) Cat.selfTest sub e
      (pack 384 [(31, 0, found.tested.toNat), (63, 32, r.2.failed.length)]))) ∧
  (∀ (s : State) (sub : Sub) (e : Exec) (buf : Addr) (len : BitVec 32) (b : List Byte) (r : LoadResult),
    s.ready Cat.bundleLoad sub (pack 384 [(63, 0, buf.toNat), (95, 64, len.toNat)]) e = true → misaligned buf = false →
    (bootWaits s = false → exec (.bundleLoad sub buf len (some b) r) s = .next (s.refused sub e .busy)) ∧
    (bootWaits s = true → bundleOk s b = false →
      exec (.bundleLoad sub buf len (some b) r) s = .next (s.refused sub e .badSignature)) ∧
    (bootWaits s = true → exec (.bundleLoad sub buf len none r) s = .next (s.refused sub e .dmaError)) ∧
    (bootWaits s = true → bundleOk s b = true →
      exec (.bundleLoad sub buf len (some b) r) s = .next ((s.loadBundle b true r).done Cat.bundleLoad sub e 0))) ∧
  (∀ (s : State) (sub : Sub) (e : Exec), s.ready Cat.bundleInfoGet sub 0 e = true → exec (.bundleInfoGet sub) s =
    .next (s.done Cat.bundleInfoGet sub e (pack 384 [(31, 0, s.dev.bundleVer.toNat), (32, 32, s.dev.bundleFromPcie.toNat),
      (127, 64, s.dev.bundleNs.toNat)]))) ∧
  (∀ (s : State) (sub : Sub) (e : Exec) (buf : Addr) (len : BitVec 32) (b : List Byte),
    s.ready Cat.flashUpdate sub (pack 384 [(63, 0, buf.toNat), (95, 64, len.toNat)]) e = true → misaligned buf = false →
    (s.dev.flashing ≠ none → exec (.flashUpdate sub buf len (some b)) s = .next (s.refused sub e .busy)) ∧
    (s.dev.flashing = none → exec (.flashUpdate sub buf len none) s = .next (s.refused sub e .dmaError)) ∧
    (s.dev.flashing = none → bundleOk s b = false →
      exec (.flashUpdate sub buf len (some b)) s = .next (s.refused sub e .badSignature)) ∧
    (s.dev.flashing = none → bundleOk s b = true → s.dev.bundleFromPcie = false → exec (.flashUpdate sub buf len (some b)) s =
      .next ((s.setFlash (!s.dev.bootSlot) [] (some (!s.dev.bootSlot, b))).begun sub e)) ∧
    (s.dev.flashing = none → bundleOk s b = true → s.dev.bundleFromPcie = true → exec (.flashUpdate sub buf len (some b)) s =
      .next ((s.drawn.setFlash (s.free 1 == 1) [] (some (s.free 1 == 1, b))).begun sub e))) ∧
  (∀ (s : State) (sub : Sub) (e : Exec) (buf : Addr) (len : BitVec 32) (b : List Byte) (slot : Bool) (data : HostData),
    s.mode ≠ .reset → s.mode ≠ .lockout → s.findExec sub.queue.toNat sub.index = some e → e.opcode.toNat = Cat.flashUpdate.opcode →
    e.param = pack 384 [(63, 0, buf.toNat), (95, 64, len.toNat)] → e.begun = true → s.dev.flashing = some (slot, b) →
    exec (.flashUpdate sub buf len data) s = .next ((s.setFlash slot b none).done Cat.flashUpdate sub e 0))) ∧
  ((∀ (s : State) (src test : Bool) (found : SelfTestResult), s.mode = .boot → s.dev.bootStep = 1 ∨ s.dev.bootStep = 2 →
    ∃ u : State, u = { s with dev := { s.dev with
      bootSrcStrap := src, factory := test && s.fuses.factoryIntact, bootStep := 2, pcieUp := s.dev.pcieUp || s.dev.perstN } } ∧
      exec (.bootStart src test true found) s = .next (u.bootTest found) ∧
      exec (.bootStart src test false found) s = .next (u.raise 0x1008 0x00A 4 1 0)) ∧
  (∀ (s : State) (slot : Bool) (r : LoadResult), s.mode = .boot → s.dev.loading = some slot →
    exec (.bootBundleLoaded r) s = .next (s.loadBundle (if slot then s.dev.flashB else s.dev.flashA) false r)) ∧
  (∀ (s : State) (b : List Byte) (pcie : Bool), s.mode = .boot → darkChiplet s = none →
    (s.loadBundle b pcie .loaded).dev.mode = .configure) ∧
  (∀ (s : State) (b : List Byte) (pcie : Bool) (seg : BitVec 8), s.mode = .boot →
    (s.loadBundle b pcie (.readbackFailed seg)).dev.mode = .boot ∧
    (s.loadBundle b pcie (.readbackFailed seg)).dev.bootError = 2 ∧
    (s.loadBundle b pcie (.chipletFailed seg)).dev.mode = .boot ∧ (s.loadBundle b pcie (.chipletFailed seg)).dev.bootError = 3))

/-- Writes and reads of the time base complete (R227 to R232, R237) while the host reaches the device: a value in range waits for
the next tick, one out of range is discarded with TIME_REG_REJECT; a read of TIME_NOW or PPS_IN latches what it returns, and one of
TIME_NOW finds the writes before it in effect (R30).
STAMP_CALIBRATION sets the delays of a port whose lanes are UP, and TS_CAL_GET reads them while the link is up and answers
LINK_DOWN else (R244, R246, R248, Table 9.7). The bound that a calibration states is at most 3,000 ps on a native lane and 5,000
ps else; on stepping A0 the bound read is always this figure (R410). -/
def Obligations.TimeRegistersComplete : Prop :=
  ((∀ (s : State) (v : BitVec 64), s.hostUp = true →
    (0x130000000 ≤ v.toNat ∧ v.toNat ≤ 0x150000000 →
      exec (.timeIncWrite v) s = .next ((s.latchLow 0x6000 v).queueWrite (.inc v))) ∧
    (v.toNat < 0x130000000 ∨ 0x150000000 < v.toNat →
      exec (.timeIncWrite v) s = .next ((s.latchLow 0x6000 v).raise 0x1004 0x020 0 1 0x6000)) ∧
    (v.toInt.natAbs ≤ 0x3B9ACA000000 → exec (.timeAdjWrite v) s = .next ((s.latchLow 0x6008 v).queueWrite (.adj v))) ∧
    (0x3B9ACA000000 < v.toInt.natAbs →
      exec (.timeAdjWrite v) s = .next ((s.latchLow 0x6008 v).raise 0x1004 0x020 0 1 0x6008)) ∧
    (badTimeCtl v = false → exec (.timeCtlWrite v) s = .next ((s.latchLow 0x6038 v).queueWrite (.ctl v))) ∧
    (badTimeCtl v = true → exec (.timeCtlWrite v) s = .next ((s.latchLow 0x6038 v).raise 0x1004 0x020 0 1 0x6038))) ∧
  (∀ (s u : State) (sec ns : BitVec 64), s.hostUp = true →
    u = ((s.latchLow 0x6010 sec).latch 0x6014 (BitVec.ofNat 32 (fld sec 63 32))).latchLow 0x6018 ns →
    (fld ns 63 32 ≤ 999999999 → exec (.timeSet sec ns) s = .next (u.queueWrite (.setTime sec ns))) ∧
    (999999999 < fld ns 63 32 → exec (.timeSet sec ns) s = .next (u.raise 0x1004 0x020 0 1 0x6018))) ∧
  (∀ s u : State, s.hostUp = true →
    (s.time.writes = [] → exec .timeNowLatch s = .next { s with
      time := { s.time with nowLatch := s.now, tbLatch := BitVec.ofNat 64 s.tbNs }, out := s.out ++ [.read 0x6020 s.now] }) ∧
    (s.time.writes ≠ [] → exec (.timeTick ⟨1, []⟩) s = .next u → exec .timeNowLatch s = .next { u with
      time := { u.time with nowLatch := u.now, tbLatch := BitVec.ofNat 64 u.tbNs }, out := u.out ++ [.read 0x6020 u.now] }) ∧
    exec .ppsInLatch s = .next { s with
      time := { s.time with ppsHeld := some s.time.ppsRead }, out := s.out ++ [.read 0x6050 s.time.ppsRead.stamp] } ∧
    exec .ppsInLatchRelease s = .next { s with
      time := { s.time with ppsHeld := none }, out := s.out ++ [.read 0x6068 (s.time.ppsRead.count.setWidth 128)] })) ∧
  ((∀ (s : State) (p : PortNo) (rx tx bound : BitVec 32), lanesIn s p.toNat .up = true →
    exec (.stampCalibration p rx tx bound) s = .next (s.modPort p.toNat (fun x => { x with
      dRx := rx, dTx := tx, calBound := BitVec.ofNat 32 (min bound.toNat (if x.native then 3000 else 5000))
      calNs := BitVec.ofNat 64 s.tbNs, calCount := if x.calCount = 0xFF then 0xFF else x.calCount + 1
      link := { x.link with calibrated := true } }))) ∧
  (∀ (s : State) (sub : Sub) (e : Exec) (h : Handle) (x : Port), s.ready Cat.tsCalGet sub (pack 384 [(31, 0, h.toNat)]) e = true →
    s.port (hPort h) = some x →
    (x.link.up = true → exec (.tsCalGet sub h) s = .next (s.done Cat.tsCalGet sub e (pack 384 [(191, 128, x.calNs.toNat),
      (127, 96, x.dRx.toNat), (95, 64, x.dTx.toNat), (63, 32,
        if s.fuses.stepping = 0 then (if x.native then 3000 else 5000) else x.calBound.toNat), (7, 0, x.calCount.toNat)]))) ∧
    (x.link.up = false → exec (.tsCalGet sub h) s = .next (s.refused sub e .linkDown))))

/-- TIME_TICK completes (R224, R229, R230): with no write waiting, device time and the time base advance by TIME_INC each tick and
nothing else changes; a TIME_INC applies after the increment of its tick; a TIME_ADJ that would lead below zero is rejected. The
reference, PPS and checkpoint rows complete (R233 to R241), each at its instant, with the quality following its conditions; a
slice's copy that slips differs from the hub's until a checkpoint finds it, and is then corrected. -/
def Obligations.TimeRowsComplete : Prop :=
  ((∀ (s : State) (n : Nat), s.time.writes = [] → ∃ x, exec (.timeTick ⟨n, []⟩) s = .next { s with time := { s.time with
    dev := s.time.dev + n * s.time.inc.toNat, tb := s.time.tb + n * s.time.inc.toNat
    crossed := x, ticks := s.time.ticks + n } } ∧
    (0 < n → (x = true ↔ s.time.dev / secUnit < (s.time.dev + n * s.time.inc.toNat) / secUnit))) ∧
  (∀ (s : State) (v : BitVec 64), s.time.writes = [.inc v] → ∃ t, exec (.timeTick ⟨2, []⟩) s = .next t ∧
    t.time.dev = s.time.dev + s.time.inc.toNat + v.toNat ∧ t.time.tb = s.time.tb + s.time.inc.toNat + v.toNat ∧
    t.time.inc = v ∧ t.time.writes = []) ∧
  (∀ (s : State) (v : BitVec 64), s.time.writes = [.adj v] →
    (s.time.dev + s.time.inc.toNat : Int) + v.toInt * 65536 < 0 → ∃ t, exec (.timeTick ⟨1, []⟩) s = .next t ∧
      t.time.dev = s.time.dev + s.time.inc.toNat ∧ t.faults.transit.length = s.faults.transit.length + 1) ∧
  (∀ (s : State) (x : SliceSlip), s.time.writes = [] → ∃ t, exec (.timeTick ⟨1, [x]⟩) s = .next t ∧
    t.time.dev = s.time.dev + s.time.inc.toNat ∧
    t.time.skews = Map.upd (0, 0) s.time.skews x.slice.toNat (fun d => (d.1 + x.dev, d.2 + x.tb)))) ∧
  ((∀ s : State, s.time.refSel ≠ 0 → s.time.refLock = false → exec .refLock s = .next ((s.modTime (fun t => { t with
    refLock := true, everLocked := t.everLocked || t.set })).requality)) ∧
  (∀ s : State, s.time.refLock = true → exec .refLoss s = .next (((s.modTime (fun t => { t with
    refLock := false })).requality).raise 0x1004 0x021 0 1 s.time.refSel)) ∧
  (∀ s : State, s.time.quality = .holdover → s.time.holdValid = true →
    s.time.holdStart + 1000000000 * fld s.time.ctl 31 20 ≤ s.tbNs →
    exec .holdValidExpiry s = .next { s with time := { s.time with holdValid := false } }) ∧
  (∀ (s : State) (t : Nat), s.time.ppsSeen = true → s.time.ppsCounted = some t → t + 1500000000 ≤ s.tbNs →
    exec .ppsSeenTimeout s = .next ((s.modTime (fun t => { t with ppsSeen := false })).requality)) ∧
  (∀ s : State, s.mode = .configure ∨ s.mode = .run → bitAt s.time.ctl 1 = true → s.time.quality ≠ .invalid →
    s.time.crossed = true → exec .ppsOutRise s = .next { s with time := { s.time with
      ppsOut := true, ppsOutNs := s.tbNs, crossed := false } }) ∧
  (∀ s : State, s.time.ppsOut = true → s.time.ppsOutNs + 1000000 * fld s.time.ctl 19 11 ≤ s.tbNs →
    exec .ppsOutFall s = .next { s with time := { s.time with ppsOut := false } }) ∧
  (∀ (s : State) (q : BitVec 3), s.mode ≠ .reset → s.time.ppsAccept = none → s.time.quality = .invalid →
    exec (.ppsInEdge q) s = .next { s with time := { s.time with
      ppsAccept := some s.tbNs
      pps := { stamp := timeOf (roundQuarter (s.time.dev + q.toNat * 1073741824))
               offset := BitVec.ofInt 64 (ppsOffset (roundQuarter (s.time.dev + q.toNat * 1073741824)))
               count := s.time.pps.count } } }) ∧
  (∀ (s : State) (q : BitVec 3) (t : Nat), s.mode ≠ .reset → s.time.ppsAccept = some t → s.tbNs < t + 500000000 →
    exec (.ppsInEdge q) s = .next (s.bump 0 0 1)) ∧
  (∀ (s u : State) (slips : List SliceSlip), 1024 ≤ s.time.ticks → s.mode ≠ .lockout → s.mode ≠ .reset → u = s.skewed slips →
    exec (.timeCheckpoint slips) s = .next (foldNats (slicesThere s) (fun a sl => a.takeCheckpoint sl)
      { u with time := { u.time with ticks := u.time.ticks % 1024 } })) ∧
  (∀ (s : State) (sl : Nat), s.domOn (4 + sl) = true → bitAt s.time.sliceOk sl = true →
    (Map.find s.time.skews sl = none → s.takeCheckpoint sl = s) ∧
    (Map.find s.time.skews sl ≠ none → s.takeCheckpoint sl = s.slip sl)))

/-- TIME_INC (R228): a value from 0x1_3000_0000 to 0x1_5000_0000 waits for its tick, any other is discarded with a TIME_REG_REJECT
NOTE; the new increment applies from the tick at which it takes effect, and nothing steps: device time and the time base go on
by the old increment in that tick and by the new one after it. -/
def Obligations.TimeIncrement : Prop :=
  (∀ (s : State) (v : BitVec 64), s.hostUp = true →
    (0x130000000 ≤ v.toNat ∧ v.toNat ≤ 0x150000000 →
      exec (.timeIncWrite v) s = .next ((s.latchLow 0x6000 v).queueWrite (.inc v))) ∧
    (v.toNat < 0x130000000 ∨ 0x150000000 < v.toNat →
      exec (.timeIncWrite v) s = .next ((s.latchLow 0x6000 v).raise 0x1004 0x020 0 1 0x6000))) ∧
  (∀ (s : State) (v : BitVec 64) (n : Nat), s.time.writes = [.inc v] → ∃ x, exec (.timeTick ⟨n + 1, []⟩) s = .next { s with
    time := { s.time with
      dev := s.time.dev + s.time.inc.toNat + n * v.toNat, tb := s.time.tb + s.time.inc.toNat + n * v.toNat, inc := v
      writes := [], crossed := x, ticks := s.time.ticks + (n + 1) } })

/-- The port commands complete (R68, R69, R72, R73, R84 to R88): a port is created on free lanes and its handle answered; a disabled
port is destroyed, an enabled one is BUSY; status is read as Table 3.7 lays it out; PORT_ATTR is set; a hold-down is cleared.
PORT_CFG writes complete (R73 to R75): ENABLE from 0 to 1 brings the port's lanes up, from 1 to 0 takes it down, TYPE cannot be
written, and a value that R74 discards is rejected. -/
def Obligations.PortCommandsComplete : Prop :=
  ((∀ (s u : State) (sub : Sub) (e f : Exec) (slice : Handle) (first : BitVec 6) (typ : BitVec 4),
    Acting s Cat.portCreate sub (pack 384 [(31, 0, slice.toNat), (37, 32, first.toNat), (43, 40, typ.toNat)])
      [4 + fld slice 19 0] e u f → laneCount typ.toNat ≠ 0 → first.toNat % laneCount typ.toNat = 0 →
    (lanesHeld u (64 * fld slice 19 0 + first.toNat) (laneCount typ.toNat) = true →
      exec (.portCreate sub slice first typ) s = .next (u.refused sub f .noRoom)) ∧
    (lanesHeld u (64 * fld slice 19 0 + first.toNat) (laneCount typ.toNat) = false →
      exec (.portCreate sub slice first typ) s = .next ((u.createPort (64 * fld slice 19 0 + first.toNat) typ.toNat).done
        Cat.portCreate sub f (portHandle u (64 * fld slice 19 0 + first.toNat)).toNat))) ∧
  (∀ (s u : State) (sub : Sub) (e f : Exec) (h : Handle) (x : Port),
    Acting s Cat.portDestroy sub (pack 384 [(31, 0, h.toNat)]) [4 + hPort h / 64] e u f → u.port (hPort h) = some x →
    (x.enabled = true → exec (.portDestroy sub h) s = .next (u.refused sub f .busy)) ∧
    (x.enabled = false → namedByOthers u h = true → exec (.portDestroy sub h) s = .next (u.begun sub f)) ∧
    (x.enabled = false → namedByOthers u h = false →
      exec (.portDestroy sub h) s = .next ((u.destroyPort (hPort h)).done Cat.portDestroy sub f 0))) ∧
  (∀ (s u : State) (sub : Sub) (e f : Exec) (h : Handle) (x : Port),
    Acting s Cat.portStatusGet sub (pack 384 [(31, 0, h.toNat)]) [4 + hPort h / 64] e u f → u.port (hPort h) = some x →
    exec (.portStatusGet sub h) s = .next (u.done Cat.portStatusGet sub f (portStatus u (hPort h) x))) ∧
  (∀ (s u : State) (sub : Sub) (e f : Exec) (h : Handle) (a : BitVec 32),
    Acting s Cat.portAttrSet sub (pack 384 [(31, 0, h.toNat), (63, 32, a.toNat)]) [4 + hPort h / 64] e u f →
    badAttr s a = false → (bitAt a 31 = false ∨ u.ports.countP (fun y => y.1 != hPort h && y.2.priv) < 64) →
    exec (.portAttrSet sub h a) s = .next ((u.modPort (hPort h) (fun x => { x with attr := a })).done Cat.portAttrSet sub f 0)) ∧
  (∀ (s u : State) (sub : Sub) (e f : Exec) (h : Handle),
    Acting s Cat.portHoldClear sub (pack 384 [(31, 0, h.toNat)]) [4 + fld h 19 0 / 64] e u f →
    exec (.portHoldClear sub h) s = .next ((u.modPort (fld h 19 0) (fun x => { x with link := { x.link with
      holdUntil := none, downs := [] } })).done Cat.portHoldClear sub f 0))) ∧
  (∀ (s u : State) (p : PortNo) (x : Port) (v : BitVec 64), s.hostUp = true → sliceThere s (p.toNat / 64) = true →
    s.port p.toNat = some x → s.sliceWritable (p.toNat / 64) = true →
    (badPortCfg x (setFld v 0 0 1) = true → exec (.portEnable p v) s =
      .next ((s.latchLow (portBase p.toNat) (setFld v 0 0 1)).raise (macSource p.toNat) 0x001 0 1 (portBase p.toNat))) ∧
    (badPortCfg x (setFld v 0 0 1) = false → x.enabled = false →
      u = (s.latchLow (portBase p.toNat) (setFld v 0 0 1)).modPort p.toNat (fun y => { y with
        cfg := setFld (setFld v 0 0 1 &&& 0x3FFFFFFFFFFFCE01) 7 4 x.type }) →
      exec (.portEnable p v) s = .next (u.enablePort p.toNat)) ∧
    (badPortCfg x (setFld v 0 0 0) = false → x.enabled = true →
      u = (s.latchLow (portBase p.toNat) (setFld v 0 0 0)).modPort p.toNat (fun y => { y with
        cfg := setFld (setFld v 0 0 0 &&& 0x3FFFFFFFFFFFCE01) 7 4 x.type }) →
      exec (.portDisable p v) s = .next (u.disablePort p.toNat)))

/-- The lane commands complete (R42, R43, R52 to R60): the status buffer of Table 2.10; the settings of Table 2.6, a change of which
sends lanes in ALIGN or UP to TRAIN; adaptation frozen, released or started anew; a retirement cleared; LANE_SER windows started
afresh. -/
def Obligations.LaneCommandsComplete : Prop :=
  (∀ (s u : State) (sub : Sub) (e f : Exec) (buf : Addr) (h : Handle) (i : BitVec 3),
    Acting s Cat.laneStatusGet sub (pack 384 [(63, 0, buf.toNat), (95, 64, h.toNat), (98, 96, i.toNat)]) [20 + hPort h / 64] e u f →
    misaligned buf = false → badLaneIdx s h i = false → exec (.laneStatusGet sub buf h i) s = .next (State.done
      ((u.sampleLane (laneNamed h i)).writeBuf buf
        (leBytes 64 (laneStatus (u.sampleLane (laneNamed h i)) (hPort h) (laneNamed h i)).toNat)).drawn Cat.laneStatusGet sub f 0)) ∧
  (∀ (s u t : State) (sub : Sub) (e f : Exec) (h : Handle) (i : BitVec 3) (rx tx ctl : BitVec 1) (pre main post : BitVec 8)
      (timeout : BitVec 16),
    Acting s Cat.laneCfgSet sub (pack 384 [(127, 96, h.toNat), (90, 88, i.toNat), (83, 83, rx.toNat), (82, 82, tx.toNat),
      (81, 81, ctl.toNat), (63, 56, pre.toNat), (55, 48, main.toNat), (47, 40, post.toNat), (31, 16, timeout.toNat)])
      [20 + hPort h / 64] e u f → badLaneCfg s h i (ctl == 1) (pre.toNat, main.toNat, post.toNat) timeout.toNat = false →
    t = u.modLane (laneNamed h i) (fun y => { y with
      rxInv := rx == 1, txInv := tx == 1, txCtl := ctl == 1, timeout := timeout
      cPre := if ctl == 1 then pre else y.cPre, cMain := if ctl == 1 then main else y.cMain
      cPost := if ctl == 1 then post else y.cPost }) →
    exec (.laneCfgSet sub h i rx tx ctl pre main post timeout) s = .next (State.done
      (if (u.lane (laneNamed h i)).rxInv = (rx == 1) ∧ (u.lane (laneNamed h i)).txInv = (tx == 1) ∧
        (u.lane (laneNamed h i)).txCtl = (ctl == 1) then t else t.retrain (hPort h)) Cat.laneCfgSet sub f 0)) ∧
  (∀ (s u : State) (sub : Sub) (e f : Exec) (h : Handle) (i : BitVec 3),
    (Acting s Cat.laneCfgGet sub (pack 384 [(31, 0, h.toNat), (34, 32, i.toNat)]) [20 + hPort h / 64] e u f →
      badLaneIdx s h i = false → exec (.laneCfgGet sub h i) s = .next (u.done Cat.laneCfgGet sub f (laneCfg u h i))) ∧
    (Acting s Cat.laneRetireClear sub (pack 384 [(31, 0, h.toNat), (34, 32, i.toNat)]) [20 + hPort h / 64] e u f →
      badLaneIdx s h i = false → (u.lane (laneNamed h i)).state ≠ .retired → exec (.laneRetireClear sub h i) s = .next (State.done
        (u.modLane (laneNamed h i) (fun x => { x with retired := false })) Cat.laneRetireClear sub f 0)) ∧
    (∀ action : BitVec 2, action ≠ 3 → badLaneIdx s h i = false →
      Acting s Cat.laneAdaptCtl sub (pack 384 [(31, 0, h.toNat), (34, 32, i.toNat), (41, 40, action.toNat)])
        [20 + hPort h / 64] e u f →
      (action = 2 → exec (.laneAdaptCtl sub h i action) s = .next ((u.retrain (hPort h)).done Cat.laneAdaptCtl sub f 0)) ∧
      (action ≠ 2 → (u.lane (laneNamed h i)).state = .align ∨ (u.lane (laneNamed h i)).state = .up →
        exec (.laneAdaptCtl sub h i action) s = .next (State.done ((u.sampleLane (laneNamed h i)).modLane (laneNamed h i) (fun x => { x with
          adapt := if action = 0 then .frozen else .track, recoverNs := none })) Cat.laneAdaptCtl sub f 0)) ∧
      (action ≠ 2 → (u.lane (laneNamed h i)).state ≠ .align → (u.lane (laneNamed h i)).state ≠ .up →
        exec (.laneAdaptCtl sub h i action) s = .next (u.refused sub f .linkDown)))) ∧
  (∀ (s u : State) (sub : Sub) (e f : Exec) (h : Handle) (x : Port) (window : BitVec 14) (thresh : BitVec 24),
    Acting s Cat.laneSerCfg sub (pack 384 [(31, 0, h.toNat), (45, 32, window.toNat), (87, 64, thresh.toNat)])
      [20 + hPort h / 64] e u f → 1 ≤ window.toNat → window.toNat ≤ 10000 → 1 ≤ thresh.toNat → thresh.toNat ≤ 10000000 →
    u.port (hPort h) = some x → exec (.laneSerCfg sub h window thresh) s = .next (State.done
      (foldNats (lanesOf (hPort h) x) (fun a l =>
          if (a.lane l).state == .up then (a.sampleLane l).modLane l (Lane.endWindow 0 u.tbNs) else a)
        (u.modPort (hPort h) (fun y => { y with serWindow := window.setWidth 16, serThresh := thresh })))
      Cat.laneSerCfg sub f 0))

/-- The lane tests and eye scans complete (R44, R64 to R67, R330): a test puts its lane in TEST, on a disabled port only; a scan
starts on a lane in ALIGN, UP or TEST that runs none, where its chiplet runs fewer than 16, under a number that none of these
has, at the highest voltage and the lowest phase of its range; its status and its abort. -/
def Obligations.LaneTestsComplete : Prop :=
  (∀ (s u : State) (sub : Sub) (e f : Exec) (h : Handle) (i : BitVec 3) (pattern : BitVec 4) (loop : BitVec 2) (gen chk : BitVec 1),
    Acting s Cat.laneTestCtl sub (pack 384 [(31, 0, h.toNat), (34, 32, i.toNat), (40, 40, 1), (44, 41, pattern.toNat),
      (46, 45, loop.toNat), (47, 47, gen.toNat), (48, 48, chk.toNat)]) [20 + hPort h / 64] e u f →
    badTest s h i pattern loop = false →
    ((u.port (hPort h)).any (fun x => x.enabled) = true →
      exec (.laneTestCtl sub h i 1 pattern loop gen chk) s = .next (u.refused sub f .badMode)) ∧
    ((u.port (hPort h)).any (fun x => x.enabled) = false →
      exec (.laneTestCtl sub h i 1 pattern loop gen chk) s = .next (State.done
        (((u.takeVote (20 + hPort h / 64) (testVote u (hPort h))).sampleLane (laneNamed h i)).modLane (laneNamed h i) (fun x =>
          { Lane.move .test x with
            test := some { pattern := pattern, loop := loop, genEn := gen == 1, chkEn := chk == 1, acquired := false }, corr := 0 }))
        Cat.laneTestCtl sub f 0))) ∧
  (∀ (s u : State) (sub : Sub) (e f : Exec) (buf : Addr) (len : BitVec 32) (h : Handle) (i : BitVec 3) (eye : BitVec 2)
      (dwell : BitVec 6) (vMin vMax vStep pMin pMax pStep : BitVec 8) (errStop : BitVec 32) (p : BitVec 256),
    p = pack 256 [(255, 192, buf.toNat), (191, 160, len.toNat), (159, 128, h.toNat), (122, 120, i.toNat), (119, 118, eye.toNat),
      (117, 112, dwell.toNat), (111, 104, vMin.toNat), (103, 96, vMax.toNat), (95, 88, vStep.toNat), (87, 80, pMin.toNat),
      (79, 72, pMax.toNat), (71, 64, pStep.toNat), (63, 32, errStop.toNat)] →
    Acting s Cat.eyeScanStart sub (p.setWidth 384) [20 + hPort h / 64] e u f → badEye s h i p = false →
    scannable (u.lane (laneNamed h i)).state = true → (u.lane (laneNamed h i)).scan = none →
    (chipletScans u (laneNamed h i / 128)).length < 16 → ∃ (t : State) (id : BitVec 16) (y : Scan),
      exec (.eyeScanStart sub buf len h i eye dwell vMin vMax vStep pMin pMax pStep errStop) s =
        .next (t.done Cat.eyeScanStart sub f id.toNat) ∧
      t = (u.modLane (laneNamed h i) (fun x => { x with scan := some y })).drawn.drawn ∧
      y.id = id ∧ (∀ k ∈ chipletScans u (laneNamed h i / 128), k.2.id ≠ id) ∧ y.queue = sub.queue ∧ y.port = h ∧ y.laneIdx = i ∧
      y.param = p ∧
      y.v = eyeSigned p 103 96 ∧ y.p = eyeSigned p 87 80 ∧ y.points = 0 ∧ y.startTime = u.now ∧ y.done = none) ∧
  (∀ (s u : State) (sub : Sub) (e f : Exec) (h : Handle) (id : BitVec 16) (l : Nat) (y : Scan), findScan u h id = some (l, y) →
    (Acting s Cat.eyeScanStatus sub (pack 384 [(31, 0, h.toNat), (47, 32, id.toNat)]) [20 + hPort h / 64] e u f →
      exec (.eyeScanStatus sub h id) s = .next (u.drawn.done Cat.eyeScanStatus sub f
        (pack 384 [(31, 0, y.points), (39, 32, (u.free 8).toNat), (40, 40, 1)]))) ∧
    (Acting s Cat.eyeScanAbort sub (pack 384 [(31, 0, h.toNat), (47, 32, id.toNat)]) [20 + hPort h / 64] e u f →
      exec (.eyeScanAbort sub h id) s = .next ((u.endScan l 0x01).done Cat.eyeScanAbort sub f 0)))

/-- Generations (R12, R14, R87): they count from 0x01 to 0xFF and go round to 0x01, so 0x00 is never one and the handle 0 never
valid; a port, a queue or a completion ring that is destroyed moves its index's generation on by one. -/
def Obligations.Generations : Prop :=
  (∀ (k : HKind), hBad k 0 = true) ∧ (∀ g : BitVec 8, nextGen g ≠ 0) ∧ nextGen 0xFF = 0x01 ∧ (∀ g : BitVec 8, g ≠ 0xFF → nextGen g = g + 1) ∧
  (∀ (s : State) (p : Nat) (x : Port), s.port p = some x → (s.destroyPort p).portGenOf p = nextGen (s.portGenOf p)) ∧
  (∀ (s : State) (n : Nat), (s.dropQueue n).queueGenOf n = nextGen (s.queueGenOf n)) ∧
  (∀ (s : State) (n : Nat), (s.dropCq n).cqGenOf n = nextGen (s.cqGenOf n))

/-- How objects are named (R5, R11, R12): a handle's GEN, TYPE and INDEX, and a handle of GEN 0x00 or of another type is refused; a
VOQ's index in its slice and in the device, from (ingress slice, egress port, class) and back; a flow's home is a quadrant of
the member, Q0 or Q1 on the CX-1024. -/
def Obligations.Numbering : Prop :=
  (∀ (g : BitVec 8) (t i : Nat), t < 16 → i < 2 ^ 20 →
    fld (mkHandle g t i) 31 24 = g.toNat ∧ fld (mkHandle g t i) 23 20 = t ∧ fld (mkHandle g t i) 19 0 = i) ∧
  (∀ (k : HKind) (h : Handle), fld h 31 24 = 0 ∨ fld h 23 20 ≠ hType k → hBad k h = true) ∧
  (∀ sl p c : Nat, sl < 16 → p < 1024 → c < 8 → voqIndex sl p c = 8192 * sl + (8 * p + c) ∧ 8 * p + c < 8192 ∧
    voqIndex sl p c < 131072 ∧ voqSlice (voqIndex sl p c) = sl ∧ voqPort (voqIndex sl p c) = p ∧ voqClass (voqIndex sl p c) = c) ∧
  (∀ (s : State) (fh : BitVec 64), quadThere s (homeQuad s fh) = true ∧ (s.fuses.member = 2 → homeQuad s fh < 2))

/-- The rows of a port's training complete (R46 to R62, Tables 2.3 and 2.4): signals lead from LISTEN into training and back,
AUTONEG to TRAIN, TRAIN to ALIGN with the partner's requests judged one by one, a lock within the skew budget to UP, one beyond it
leaves ALIGN with its markers locked, lost alignment back to ALIGN, and BACKOFF to LISTEN. A time-out of training (R57) leads to BACKOFF, 10 ms after the first in a row and twice as long
after each further one, up to 1,280 ms; the eighth in a row raises LANE_TRAIN_SLOW. -/
def Obligations.TrainingComplete : Prop :=
  ((∀ (s : State) (l : LaneNo),
    (boundPort s l.toNat = none →
      exec (.signalDetectAssert l) s = .next (s.modLane l.toNat (fun x => { x with sigDet := true })) ∧
      exec (.signalDetectDeassert l) s = .next (s.modLane l.toNat (fun x => { x with sigDet := false }))) ∧
    (∀ (p : Nat) (x : Port), boundPort s l.toNat = some p → s.port p = some x →
      exec (.signalDetectAssert l) s = .next ((s.modLane l.toNat (fun x => { x with sigDet := true })).tryTrain p) ∧
      (x.enabled = true → s.domOn (20 + p / 64) = true → exec (.signalDetectDeassert l) s =
        .next ((s.modLane l.toNat (fun x => { x with sigDet := false })).listen p)))) ∧
  (∀ (s : State) (p : PortNo), lanesIn s p.toNat .autoneg = true →
    exec (.autonegComplete p) s = .next (s.moveLanes p.toNat .train)) ∧
  (∀ (s : State) (p : PortNo) (x : Port) (presets : List (Option (BitVec 8))) (requests : List (List TapRequest)),
    s.port p.toNat = some x → lanesIn s p.toNat .train = true → exec (.trainComplete p presets requests) s = .next
      (((foldNats (lanesOf p.toNat x) (fun a l =>
          a.trainLane x (presets.getD (l - p.toNat) none) (requests.getD (l - p.toNat) []) l) s).moveLanes p.toNat .align).modPort p.toNat (fun x => { x with link := { x.link with alignEnd := some (s.tbNs + 20000000) } }))) ∧
  (∀ (s : State) (p : PortNo) (x : Port) (skews : List (BitVec 32)) (ds : List Nat) (lo hi : Nat), s.port p.toNat = some x →
    lanesIn s p.toNat .align = true → ds = (lanesOf p.toNat x).map (fun l => (skews.getD (l - p.toNat) 0).toNat) →
    lo = ds.foldl min (ds.headD 0) → hi = ds.foldl max 0 →
    (x.lanes = 1 ∨ hi - lo ≤ skewLimit (laneModeOf x.type) → exec (.alignLock p skews) s = .next
      ((foldNats (lanesOf p.toNat x) (fun a l =>
        (a.sampleLane l).modLane l (Lane.enterUp s.tbNs ((skews.getD (l - p.toNat) 0).toNat - lo))) s).modPort p.toNat (fun x => { x with
          link := { x.link with
            timeouts := 0, slowRaised := false, trainEnd := none, alignEnd := none, calibrated := false
            cleanNs := if x.link.rs = .none then some s.tbNs else none } }))) ∧
    (x.lanes ≠ 1 → skewLimit (laneModeOf x.type) < hi - lo → exec (.alignLock p skews) s = .next
      (foldNats (lanesOf p.toNat x) (fun a l => a.modLane l (fun y => { y with amLock := true })) s))) ∧
  (∀ (s : State) (p : PortNo), lanesIn s p.toNat .up = true → exec (.alignmentLost p) s = .next
    (((s.linkDown p.toNat).moveLanes p.toNat .align).modPort p.toNat (fun x => { x with link := { x.link with
      alignEnd := some (s.tbNs + 20000000) } }))) ∧
  (∀ (s : State) (p : PortNo) (x : Port) (t : Nat), s.port p.toNat = some x → t ≤ s.tbNs →
    x.link.backoffEnd = some t → lanesIn s p.toNat .backoff = true → exec (.backoffExpiry p) s = .next (s.listen p.toNat))) ∧
  (∀ (s u : State) (p : PortNo) (x : Port) (t : Nat), s.port p.toNat = some x → t ≤ s.tbNs →
    u = (foldNats (lanesOf p.toNat x) (fun a l => a.modLane l (fun y => { y with
      trainTimeouts := if y.trainTimeouts = 0xFF then 0xFF else y.trainTimeouts + 1 }))
        ((s.linkDown p.toNat).moveLanes p.toNat .backoff)).modPort p.toNat (fun y => { y with link := { y.link with
          timeouts := x.link.timeouts + 1, trainEnd := none, alignEnd := none
          slowRaised := y.link.slowRaised || (decide (8 ≤ x.link.timeouts + 1) && !x.link.slowRaised)
          backoffEnd := some (s.tbNs + 10000000 * 2 ^ min x.link.timeouts 7) } }) →
    (x.link.trainEnd = some t ∧ lanesIn s p.toNat .train = true ∧ (x.link.timeouts < 7 ∨ x.link.slowRaised = true) →
      exec (.trainTimeoutExpiry p) s = .next u) ∧
    (x.link.trainEnd = some t ∧ lanesIn s p.toNat .train = true ∧ 7 ≤ x.link.timeouts ∧ x.link.slowRaised = false →
      exec (.trainTimeoutExpiry p) s = .next (u.raise (laneSource p.toNat) 0x040 0 (s.portGenOf p.toNat).toNat p.toNat)) ∧
    (x.link.alignEnd = some t ∧ lanesIn s p.toNat .align = true ∧ (x.link.timeouts < 7 ∨ x.link.slowRaised = true) →
      exec (.alignTimeout p) s = .next u))

/-- The link's rows complete (R78, R79): a received fault takes the link down at once; with none for 1 ms, and its stamp path calibrated since it
entered UP (R244), the link comes up, unless it is held down; more link-down events in the window than THRESH hold it down, until the hold time ends. -/
def Obligations.LinkRowsComplete : Prop :=
  (∀ (s : State) (p : PortNo) (x : Port), s.port p.toNat = some x →
    exec (.rsFaultReceived p .localFault) s = .next ((s.linkDown p.toNat).modPort p.toNat (fun x => { x with
      link := { x.link with rs := .localFault } })) ∧
    exec (.rsFaultReceived p .remoteFault) s = .next ((s.linkDown p.toNat).modPort p.toNat (fun x => { x with
      link := { x.link with rs := .remoteFault } })) ∧
    (lanesIn s p.toNat .up = true → x.link.rs ≠ .none → exec (.rsFaultReceived p .none) s = .next (s.modPort p.toNat (fun x => { x with
      link := { x.link with rs := .none, cleanNs := if x.link.rs = .none then x.link.cleanNs else some s.tbNs } })))) ∧
  (∀ (s : State) (p : PortNo) (x : Port) (t : Nat), s.port p.toNat = some x → lanesIn s p.toNat .up = true →
    x.link.rs = .none → x.held = false → x.link.calibrated = true → x.link.cleanNs = some t → t + 1000000 ≤ s.tbNs →
    exec (.linkUp p) s = .next (s.modPort p.toNat (fun x => { x with link := { x.link with up := true } }))) ∧
  (∀ (s : State) (p : PortNo) (x : Port), s.port p.toNat = some x → fld x.guard 31 24 ≠ 0 → x.held = false →
    flapping x.link.downs (fld x.guard 31 24) (1000000000 * fld x.guard 23 12) = true →
    exec (.flapHoldDown p) s = .next (((s.linkDown p.toNat).modPort p.toNat (fun y => { y with link := { y.link with
      cleanNs := x.link.cleanNs, holdUntil := some (s.tbNs + 1000000000 * fld x.guard 11 0) } })).raise (macSource p.toNat) 0x042 0
        (s.portGenOf p.toNat).toNat p.toNat)) ∧
  (∀ (s : State) (p : PortNo) (x : Port) (t : Nat), s.port p.toNat = some x → x.link.holdUntil = some t → t ≤ s.tbNs →
    exec (.holdTimeExpiry p) s = .next (s.modPort p.toNat (fun x => { x with link := { x.link with holdUntil := none, downs := [] } })))

/-- The rows of a lane complete (R44, R51, R52, R59, R66): RECOVER, its end and its time-out; the end of a freeze; a test's checker
in TRACK; a LANE_SER window that exceeds its threshold; a scan's next point, which follows in the phase of its row, then in the row below,
and after its last point the scan's header and event. -/
def Obligations.LaneRowsComplete : Prop :=
  (∀ (s : State) (l : LaneNo), (s.lane l.toNat).state = .up → (s.lane l.toNat).adapt = .track →
    exec (.recoverEntry l) s = .next ((s.sampleLane l.toNat).modLane l.toNat (fun x => { x with
      adapt := .recover, recoverNs := some s.tbNs, scan := x.scan.map (fun y => { y with recover := true }) }))) ∧
  (∀ (s : State) (l : LaneNo), (s.lane l.toNat).adapt = .recover →
    exec (.recoverExit l) s = .next ((s.sampleLane l.toNat).modLane l.toNat (fun x => { x with adapt := .track, recoverNs := none }))) ∧
  (∀ (s : State) (l : LaneNo) (p t : Nat), boundPort s l.toNat = some p →
    ((s.lane l.toNat).adapt = .recover → (s.lane l.toNat).recoverNs = some t → t + 2000000 ≤ s.tbNs →
      exec (.recoverTimeout l) s = .next (s.retrain p)) ∧
    ((s.lane l.toNat).state = .up → (s.lane l.toNat).adapt = .frozen → exec (.freezeTimeout l) s = .next (s.retrain p))) ∧
  (∀ (s : State) (l : LaneNo) (t : LaneTest) (errors : BitVec 64), (s.lane l.toNat).test = some t →
    (s.lane l.toNat).state = .test → (s.lane l.toNat).adapt = .acquire →
    exec (.testAcquired l errors) s = .next ((s.sampleLane l.toNat).modLane l.toNat (fun x => { x with
      adapt := .track, test := some { t with acquired := true }
      corr := if t.chkEn then satAdd x.corr errors.toNat else x.corr }))) ∧
  (∀ (s : State) (l : LaneNo) (p e corrected symbols : Nat) (x : Port), boundPort s l.toNat = some p → s.port p = some x →
    (s.lane l.toNat).state = .up → e = (s.lane l.toNat).serStart + 1000000 * x.serWindow.toNat → e ≤ s.tbNs →
    (corrected * 10000000 ≤ x.serThresh.toNat * symbols → exec (.serWindowEnd l corrected symbols) s =
      .next (s.modLane l.toNat (fun y => { y with
        corr := satAdd y.corr (corrected - y.serCount), serCount := 0, serStart := e }))) ∧
    (x.serThresh.toNat * symbols < corrected * 10000000 → exec (.serWindowEnd l corrected symbols) s =
      .next ((s.modLane l.toNat (fun y => { y with
        corr := satAdd y.corr (corrected - y.serCount), serCount := 0, serStart := e })).raise (laneSource l.toNat)
        0x041 1 (s.portGenOf p).toNat l.toNat))) ∧
  (∀ (s : State) (l : LaneNo) (x : Scan) (errors compared : Nat), (s.lane l.toNat).scan = some x → x.done = none →
    (∀ v ph : Int, eyeNext x.param x.v x.p = some (v, ph) → exec (.eyeScanPointDone l errors compared) s = .next
      ((s.emit (.dma (BitVec.ofNat 64 (fld x.param 255 192 + 64 + 8 * x.points)) (leBytes 8 (eyeEntry x errors compared).toNat))).modLane
        l.toNat (fun z => { z with scan := some { x with
          v := v, p := ph, points := x.points + 1, endTime := s.now, recover := (s.lane l.toNat).adapt == .recover } }))) ∧
    (eyeNext x.param x.v x.p = none → exec (.eyeScanPointDone l errors compared) s = .next (((s.emit (.dma (BitVec.ofNat 64
      (fld x.param 255 192 + 64 + 8 * x.points)) (leBytes 8 (eyeEntry x errors compared).toNat))).modLane l.toNat (fun z => { z with
        scan := some { x with
          points := x.points + 1, endTime := s.now, recover := (s.lane l.toNat).adapt == .recover } })).endScan l.toNat 0x00))) ∧
  (∀ (p : BitVec 256) (v ph : Int),
    (ph + fld p 71 64 ≤ eyeSigned p 79 72 → eyeNext p v ph = some (v, ph + fld p 71 64)) ∧
    (eyeSigned p 79 72 < ph + fld p 71 64 → eyeSigned p 111 104 ≤ v - fld p 95 88 →
      eyeNext p v ph = some (v - fld p 95 88, eyeSigned p 87 80)) ∧
    (eyeSigned p 79 72 < ph + fld p 71 64 → v - fld p 95 88 < eyeSigned p 111 104 → eyeNext p v ph = none))

/-- The commands that change tables complete (R129 to R134): HOST_ADD answers the location of the entry or NO_ROOM; HOST_DELETE and
LPM_DELETE remove an entry or answer NOT_FOUND; LPM_ADD sets a route under the shared limit or answers NO_ROOM. A route set reads
back with its result, a new one at a location that no other route of its table has, an old one at its own. -/
def Obligations.TableCommandsComplete : Prop :=
  (∀ (s t : State) (sub : Sub) (e : Exec) (x : BitVec 256) (slot : HostSlot), s.ready Cat.hostAdd sub (x.setWidth 384) e = true →
    badHostEntry x = false → slot = { entry := x.setWidth 128, hit := if bitAt x 122 then 0 else hitAll s } →
    (∀ loc, s.insertHost (entryKey x) slot (BitVec.ofNat 128 (fld x 255 128)) = (t, some loc) →
      exec (.hostAdd sub x) s = .next (t.done Cat.hostAdd sub e (BitVec.ofNat 384 loc))) ∧
    (s.insertHost (entryKey x) slot (BitVec.ofNat 128 (fld x 255 128)) = (t, none) →
      exec (.hostAdd sub x) s = .next (s.drawn.refused sub e .noRoom))) ∧
  (∀ (s : State) (sub : Sub) (e : Exec) (key : BitVec 192) (k : HKey), s.ready Cat.hostDelete sub (key.setWidth 384) e = true →
    hostKeyOf key = some k →
    (hostFind s.tables.host k = none → exec (.hostDelete sub key) s = .next (s.refused sub e .notFound)) ∧
    (∀ loc y, hostFind s.tables.host k = some (loc, y) →
      exec (.hostDelete sub key) s = .next ((s.removeHost loc).done Cat.hostDelete sub e 0))) ∧
  (∀ (s : State) (sub : Sub) (e : Exec) (key : BitVec 136) (kind : BitVec 2) (index : BitVec 16) (tab : BitVec 8) (k : Nat),
    k = lpmKey (fld key 135 8) (fld key 7 0) →
    (badLpm tab key kind index true = false → s.ready Cat.lpmAdd sub (pack 384 [(135, 0, key.toNat), (137, 136, kind.toNat),
      (153, 138, index.toNat), (167, 160, tab.toNat)]) e = true →
      (Map.find (lpmTable s (tab == 3)) k ≠ none ∨ lpmRoom s (tab == 3) = true → exec (.lpmAdd sub key kind index tab) s =
        .next ((s.setLpm (tab == 3) (lpmPut (lpmTable s (tab == 3)) (tab == 3) k (kind ++ index))).done Cat.lpmAdd sub e 0)) ∧
      (Map.find (lpmTable s (tab == 3)) k = none → lpmRoom s (tab == 3) = false →
        exec (.lpmAdd sub key kind index tab) s = .next (s.refused sub e .noRoom))) ∧
    (badLpm tab key kind index false = false → s.ready Cat.lpmDelete sub (pack 384 [(135, 0, key.toNat), (137, 136, kind.toNat),
      (153, 138, index.toNat), (167, 160, tab.toNat)]) e = true →
      (Map.find (lpmTable s (tab == 3)) k ≠ none → exec (.lpmDelete sub key kind index tab) s =
        .next ((s.setLpm (tab == 3) (Map.del (lpmTable s (tab == 3)) k)).done Cat.lpmDelete sub e 0)) ∧
      (Map.find (lpmTable s (tab == 3)) k = none →
        exec (.lpmDelete sub key kind index tab) s = .next (s.refused sub e .notFound)))) ∧
  (∀ (t : Tbl LpmRoute) (v6 : Bool) (k : Nat) (res : BitVec 18), ∃ r, Map.find (lpmPut t v6 k res) k = some r ∧ r.result = res ∧
    (∀ old, Map.find t k = some old → r.loc = old.loc) ∧
    (Map.find t k = none → t.length < 2 ^ 26 → ∀ x ∈ t, x.2.loc ≠ r.loc))

/-- SEARCH, NEXT, FLUSH_BY_PORT and TABLE_INFO complete (R135, R136, R172, R326, Table 12.5): the entry of a key in HOST, an LPM
table or FLOW, or NOT_FOUND; up to COUNT entries from the cursor in location order with the next cursor, which goes on where this one stopped, STALE for one
taken before a warm reset; the entries of a port removed and counted, on FLOW once no header is parked at them; and the numbers
in use and in all. -/
def Obligations.TableReadsComplete : Prop :=
  (∀ (s u : State) (sub : Sub) (e f : Exec) (key : BitVec 310) (copy : BitVec 4) (blk : BitVec 58) (k : HKey),
    Acting s Cat.search sub (pack 384 [(309, 0, key.toNat), (317, 314, copy.toNat), (325, 318, 1), (383, 326, blk.toNat)])
      [36 + copyQuad s copy] e u f → hostKeyOf key = some k → quadThere s (copyQuad s copy) = true →
    (hostFind u.tables.host k = none → exec (.search sub key copy 1 blk) s = .next (u.refused sub f .notFound)) ∧
    (∀ loc y, hostFind u.tables.host k = some (loc, y) → exec (.search sub key copy 1 blk) s = .next (u.done Cat.search sub f
      (pack 384 [(255, 0, hostWhole u (copyQuad u copy) loc y), (287, 256, loc)])))) ∧
  (∀ (s u : State) (sub : Sub) (e f : Exec) (key : BitVec 310) (copy : BitVec 4) (tab : BitVec 8) (blk : BitVec 58) (k : Nat),
    tab = 2 ∨ tab = 3 → k = lpmKey (fld key 135 8) (fld key 7 0) →
    Acting s Cat.search sub (pack 384 [(309, 0, key.toNat), (317, 314, copy.toNat), (325, 318, tab.toNat), (383, 326, blk.toNat)])
      [36 + copyQuad s copy] e u f → lpmKeyOk (tab == 3) key = true → quadThere s (copyQuad s copy) = true →
    (Map.find (lpmTable u (tab == 3)) k = none → exec (.search sub key copy tab blk) s = .next (u.refused sub f .notFound)) ∧
    (∀ r, Map.find (lpmTable u (tab == 3)) k = some r → exec (.search sub key copy tab blk) s = .next (u.done Cat.search sub f
      (pack 384 [(1, 0, fld r.result 17 16), (17, 2, fld r.result 15 0), (287, 256, r.loc.toNat)])))) ∧
  (∀ (s u : State) (sub : Sub) (e f : Exec) (key : BitVec 310) (copy : BitVec 4) (blk : BitVec 58) (k : FKey × Bool),
    Acting s Cat.search sub (pack 384 [(309, 0, key.toNat), (317, 314, copy.toNat), (325, 318, 4), (383, 326, blk.toNat)])
      (keyDoms s (some k)) e u f → flowKeyOf key = some k → s.fuses.member ≠ 3 →
    (flowFind u k.1 = none → exec (.search sub key copy 4 blk) s = .next (u.refused sub f .notFound)) ∧
    (∀ loc x, flowFind u k.1 = some (loc, x) → exec (.search sub key copy 4 blk) s = .next ((u.writeBuf
      (BitVec.ofNat 64 (64 * blk.toNat)) (leBytes 128 x.record.toNat)).done Cat.search sub f (pack 384 [(287, 256, loc)])))) ∧
  (∀ (s u : State) (sub : Sub) (e f : Exec) (c : BitVec 64) (buf : Addr) (tab : BitVec 8) (copy : BitVec 4) (n : BitVec 7)
      (rest : List (Nat × List Byte)) (x : Cursor),
    Acting s Cat.next sub (pack 384 [(63, 0, c.toNat), (127, 64, buf.toNat), (135, 128, tab.toNat), (139, 136, copy.toNat),
      (146, 140, n.toNat)]) (if tab = 4 then flowDoms (copyQuad s copy) else [36 + copyQuad s copy]) e u f →
    misaligned buf = false → 1 ≤ n.toNat → n.toNat ≤ 64 → 1 ≤ tab.toNat → tab.toNat ≤ 4 → badCursor s tab.toNat c = false →
    (tab = 4 → hbmThere s (copyQuad s copy) = true) → quadThere s (copyQuad s copy) = true →
    (oldCursor u c = true → exec (.next sub c buf tab copy n) s = .next (u.refused sub f .stale)) ∧
    (oldCursor u c = false → x = cursorAt u tab.toNat c →
      rest = (tableBytes u tab.toNat (copyQuad u copy)).filter (fun y => decide (x.loc ≤ y.1)) →
      (rest.drop n.toNat = [] → exec (.next sub c buf tab copy n) s = .next ((if (rest.take n.toNat).isEmpty then u else
        u.writeBuf buf ((rest.take n.toNat).flatMap (·.2))).done Cat.next sub f (pack 384 [(63, 0, 0xFFFFFFFFFFFFFFFF),
          (70, 64, (rest.take n.toNat).length), (71, 71, (tab.toNat == 1 && x.relocs != u.tables.relocs).toNat)]))) ∧
      (∀ y l, rest.drop n.toNat = y :: l → exec (.next sub c buf tab copy n) s = .next (((u.writeBuf buf
        ((rest.take n.toNat).flatMap (·.2))).giveCursor { x with loc := y.1 }).done Cat.next sub f (pack 384 [
          (63, 0, (cursorOf tab.toNat u.dev.nextCursor).toNat), (70, 64, (rest.take n.toNat).length),
          (71, 71, (tab.toNat == 1 && x.relocs != u.tables.relocs).toNat)]))))) ∧
  (∀ (s : State) (tab : Nat) (x : Cursor), tab < 8 → 0 < s.dev.nextCursor → s.dev.nextCursor < 2 ^ 61 →
    cursorAt (s.giveCursor x) tab (cursorOf tab s.dev.nextCursor) = x ∧
    badCursor (s.giveCursor x) tab (cursorOf tab s.dev.nextCursor) = false) ∧
  (∀ (s u : State) (sub : Sub) (e f : Exec) (port : Handle) (vlan : BitVec 12) (static : BitVec 1),
    Acting s Cat.flushByPort sub (pack 384 [(31, 0, port.toNat), (43, 32, vlan.toNat), (44, 44, static.toNat), (55, 48, 1)])
      ((quadsThere s).map (36 + ·)) e u f → exec (.flushByPort sub port vlan static 1) s =
      .next (State.done (u.flushHost (fld port 19 0) vlan.toNat (static == 1)).1 Cat.flushByPort sub f
        (BitVec.ofNat 384 (u.flushHost (fld port 19 0) vlan.toNat (static == 1)).2))) ∧
  (∀ (s u : State) (sub : Sub) (e f : Exec) (port : Handle) (vlan : BitVec 12) (static : BitVec 1) (l : List Nat),
    Acting s Cat.flushByPort sub (pack 384 [(31, 0, port.toNat), (43, 32, vlan.toNat), (44, 44, static.toNat), (55, 48, 4)])
      ((quadsThere s).flatMap flowDoms) e u f → s.fuses.member ≠ 3 → l = flowsOfPort u (fld port 19 0) (static == 1) →
    (l.any (fun n => (Map.find u.tables.flows n).any (parkedAt u n)) = true →
      exec (.flushByPort sub port vlan static 4) s = .next (u.begun sub f)) ∧
    (l.any (fun n => (Map.find u.tables.flows n).any (parkedAt u n)) = false → exec (.flushByPort sub port vlan static 4) s =
      .next ((State.agents (foldNats l State.dropFlow u)).done Cat.flushByPort sub f (BitVec.ofNat 384 l.length)))) ∧
  (∀ (s u : State) (sub : Sub) (e f : Exec) (tab : BitVec 8) (copy : BitVec 4),
    Acting s Cat.tableInfo sub (pack 384 [(7, 0, tab.toNat), (11, 8, copy.toNat)])
      (if tab = 4 then flowDoms copy.toNat else if perQuad tab.toNat then [36 + copy.toNat] else [4 + copy.toNat]) e u f →
    knownTable tab.toNat = true → copyThere s tab.toNat copy.toNat = true → exec (.tableInfo sub tab copy) s =
      .next (u.done Cat.tableInfo sub f (pack 384 [(31, 0, inUse u tab.toNat copy.toNat),
        (63, 32, if tab = 1 then stashCount u.tables.host else 0), (95, 64, capacityOf tab.toNat)])))

/-- The longest prefix wins: a lookup answers the route of the longest length that matches, and one that is not found has no
matching route at all. -/
def Obligations.LongestPrefix : Prop :=
  ∀ (t : Tbl LpmRoute) (bits addr : Nat), addr < 2 ^ bits →
    (∀ r, lpmLookup t bits addr bits = some r → ∃ n ≤ bits, Map.find t (lpmKey (addr / 2 ^ (bits - n) * 2 ^ (bits - n)) n) = some r ∧
      ∀ m, n < m → m ≤ bits → Map.find t (lpmKey (addr / 2 ^ (bits - m) * 2 ^ (bits - m)) m) = none) ∧
    (lpmLookup t bits addr bits = none ↔
      ∀ n ≤ bits, Map.find t (lpmKey (addr / 2 ^ (bits - n) * 2 ^ (bits - n)) n) = none)

/-- A HOST insertion (R129, R130): an entry that is inserted stands at the location answered, with its key, its result and its HIT
as given; one that was there is updated in place and keeps its TAG. -/
def Obligations.HostInsertion : Prop :=
  ∀ (s : State) (k : HKey) (head : HostSlot) (tail : BitVec 128) (loc : Nat), (s.insertHost k head tail).2 = some loc →
    (hostFind s.tables.host k = none → Map.find (s.insertHost k head tail).1.tables.host loc = some head) ∧
    (∀ old, hostFind s.tables.host k = some (loc, old) → Map.find (s.insertHost k head tail).1.tables.host loc =
      some { head with entry := setFld head.entry 124 123 (fld old.entry 124 123) })

/-- The Table Access Window completes (R125 to R127, Tables 5.7 to 5.9): TAW_CMD keeps its fields with GO at 0, STATUS is the
operation's, and each TAW write that found BUSY at 1 sets OVERRUN and raises TAW_OVERRUN. An operation answers BAD_MODE for a
WRITE or DELETE outside CONFIGURE and RUN, BAD_PARAM, or UNIT_ABSENT; a READ brings the entry into TAW_DATA; a WRITE writes every copy; a
DELETE writes the reset entry; for an ACL table with no set open a change answers NO_STAGE. -/
def Obligations.TableWindowComplete : Prop :=
  (∀ (s u : State) (cmd : BitVec 64) (n : Nat) (st : Status) (finish : BitVec 64 → State), s.hostUp = true →
    finish = (fun c => (List.range n).foldl (fun a _ => a.raise 0x1003 0x003 0 1 0) (State.latchLow
      { u with host := { u.host with taw := { u.host.taw with
        cmd := c &&& 0x70F0_FF00_FFFF_FFFF, status := BitVec.ofNat 16 (statusCode st)
        overrun := u.host.taw.overrun || decide (0 < n) } } } 0x5000 c)) →
    (tawRun (setFld cmd 62 60 0) s = (u, st) → exec (.tawRead cmd n) s = .next (finish (setFld cmd 62 60 0))) ∧
    (tawRun (setFld cmd 62 60 1) s = (u, st) → exec (.tawWrite cmd n) s = .next (finish (setFld cmd 62 60 1))) ∧
    (tawRun (setFld cmd 62 60 2) s = (u, st) → exec (.tawDelete cmd n) s = .next (finish (setFld cmd 62 60 2)))) ∧
  (∀ (s : State) (cmd : BitVec 64) (op copy t i : Nat), op = fld cmd 62 60 → copy = fld cmd 55 52 → t = fld cmd 47 40 →
    i = fld cmd 31 0 → s.mode ≠ .reset →
    (op = 1 ∨ op = 2 → s.confRun = false → tawRun cmd s = (s, .badMode)) ∧
    ((op ≠ 1 ∧ op ≠ 2) ∨ s.confRun = true →
      (2 < op ∨ tawEntries t ≤ i → tawRun cmd s = (s, .badParam)) ∧
      (op ≤ 2 → i < tawEntries t → (op = 1 → tawRefuses t (tawData s (tawWidth t)) = false) →
        (tawAbsent s op t copy i = true → tawRun cmd s = (s, .unitAbsent)) ∧
        (tawAbsent s op t copy i = false →
          (op = 0 → tawRun cmd s = ({ s with host := { s.host with taw := { s.host.taw with
            data := tawWords (tawEntry s t copy i) } } }, .ok)) ∧
          (op = 1 → isAcl t = false → tawRun cmd s = (s.writeTable t copy i (tawData s (tawWidth t)), .ok)) ∧
          (op = 2 → isAcl t = false → tawRun cmd s = (s.writeTable t copy i 0, .ok)) ∧
          (op ≠ 0 → isAcl t = true → s.vers.stage = none → tawRun cmd s = (s, .noStage))))))

/-- The learn and repair rows complete (R94, R133, R137 to R140), learning in RUN: the oldest request is served, and one that the
table satisfies is discarded; the move window's boundary, a whole multiple of MOVE_WINDOW in device time; aging at whole multiples
of half AGE_TIME in TB_NS; an entry or a control-store word that failed
parity is rewritten from a good copy and CORRECTED, or takes its reset value or the bundle's image and is a DEGRADE. -/
def Obligations.LearnAndRepairComplete : Prop :=
  (∀ (s : State) (q : QuadNo) (r : LearnReq) (rest : List LearnReq) (u : State), (s.quad q.toNat).learnQ = r :: rest → s.mode = .run →
    u = s.modQuad q.toNat (fun x => { x with learnQ := rest }) → u.port r.port.toNat ≠ none →
    (hostFind u.tables.host { typ := 1, val := r.vlan.toNat * 2 ^ 48 + r.mac.toNat } = none →
      exec (.learnRequest q) s = .next (u.learnNew q.toNat r)) ∧
    (∀ loc x, hostFind u.tables.host { typ := 1, val := r.vlan.toNat * 2 ^ 48 + r.mac.toNat } = some (loc, x) →
      (isStatic x = true ∨ frozen x = true ∨ onPort r.port.toNat x = true → exec (.learnRequest q) s = .next u) ∧
      (isStatic x = false → frozen x = false → onPort r.port.toNat x = false →
        exec (.learnRequest q) s = .next (u.learnMove q.toNat loc x r)))) ∧
  (∀ (s : State) (mark : Nat), s.mode = .run → windowDue s = some mark → exec .moveWindowBoundary s = .next (s.tables.host.foldl
   (fun a e =>
    if hType4 e.2.entry ≠ 1 then a
    else if frozen e.2 = false then a.modHost e.1 (fun y => { y with entry := setFld y.entry 42 39 0 })
    else if moveCnt e.2 ≤ 1 then (a.modHost e.1 (fun y => { y with entry := setFld (setFld y.entry 120 120 0) 42 39 0 })).postLearn
      .unfrozen (fld e.2.entry 119 108) (fld e.2.entry 107 60) (eventPort e.2) 0
    else a.modHost e.1 (fun y => { y with entry := setFld y.entry 42 39 (moveCnt y - 1) }))
    (s.modTables (fun t => { t with moveMark := mark })))) ∧
  (∀ (s : State) (mark : Nat),
    (windowDue s = some mark → s.tables.moveMark < mark ∧ mark ≤ s.time.dev ∧ nsUnit * (1000000 * learnCfg s 43 32) ∣ mark) ∧
    (ageDue s = some mark → s.tables.ageMark < mark ∧ mark ≤ s.tbNs ∧ 500000000 * learnCfg s 63 44 ∣ mark)) ∧
  (∀ (s : State) (mark : Nat), s.mode = .run → ageDue s = some mark → exec .ageSweep s = .next (s.tables.host.foldl (fun a e =>
    if hType4 e.2.entry ≠ 1 ∨ isStatic e.2 = true then a
    else if e.2.hit = 0 then ((a.dropEntry e.1).countQuad (ownerOf s { typ := 1, val := fld e.2.entry 119 60 }) 18 1).postLearn .aged
      (fld e.2.entry 119 108) (fld e.2.entry 107 60) (eventPort e.2) 0
    else a.modHost e.1 (fun y => { y with hit := 0 })) (s.modTables (fun t => { t with ageMark := mark }))).settleStash) ∧
  (∀ (s : State) (table : BitVec 8) (copy : BitVec 4) (loc : BitVec 32), s.mode ≠ .reset → table ≠ 4 → perQuad table.toNat = true →
    quadThere s copy.toNat = true →
    exec (.tableParityRepair table copy loc true) s = .next ((s.countQuad copy.toNat (32 + table.toNat) 1).raise
      (paritySource table.toNat copy.toNat) 0x063 1 1 (table.toNat * 2 ^ 40 + copy.toNat * 2 ^ 36 + loc.toNat)) ∧
    exec (.tableParityRepair table copy loc false) s = .next (((s.countQuad copy.toNat (32 + table.toNat) 1).loseEntry table.toNat
      copy.toNat loc.toNat).raise (paritySource table.toNat copy.toNat) 0x063 2 1
        (table.toNat * 2 ^ 40 + copy.toNat * 2 ^ 36 + loc.toNat))) ∧
  (∀ (s : State) (table : BitVec 8) (copy : BitVec 4) (loc : BitVec 32) (good : Bool), s.mode ≠ .reset →
    (hbmThere s copy.toNat = true → exec (.tableParityRepair 4 copy loc good) s = .next (((s.losePath loc.toNat).countQuad copy.toNat
      36 1).raise (0x2010 + 0x100 * copy.toNat + loc.toNat / 4 % 2097152 / 524288) 0x063 2 1
        (4 * 2 ^ 40 + copy.toNat * 2 ^ 36 + loc.toNat))) ∧
    (0x10 ≤ table.toNat → table.toNat ≤ 0x1A → perQuad table.toNat = false → sliceThere s copy.toNat = true →
      exec (.tableParityRepair table copy loc good) s = .next (((s.countSlice copy.toNat (288 + (table.toNat - 0x10)) 1).loseEntry
        table.toNat copy.toNat loc.toNat).raise (paritySource table.toNat copy.toNat) 0x063 2 1
          (table.toNat * 2 ^ 40 + copy.toNat * 2 ^ 36 + loc.toNat)))) ∧
  (∀ (s : State) (source : BitVec 16) (bank : BitVec 1) (word : BitVec 14), s.mode ≠ .reset → source.toNat / 4096 = 3 →
    sliceThere s (source.toNat / 256 % 16) = true → 0x10 ≤ source.toNat % 256 → source.toNat % 256 ≤ 0x33 →
    word.toNat < bankWords ((source.toNat % 256 - 0x10) % 9) →
    exec (.csParityRepair source bank word true) s = .next (s.raise source.toNat 0x060 1 1
      ((source.toNat % 256 - 0x10) * 2 ^ 40 + bank.toNat * 2 ^ 32 + word.toNat))) ∧
  (∀ (s : State) (source : BitVec 16) (bank : BitVec 1) (word : BitVec 14) (b : List Byte) (copy store : Nat) (good : Bool),
    s.mode ≠ .reset → s.dev.bundle = some b → word.toNat < bankWords store →
    (source.toNat / 4096 = 3 ∧ sliceThere s (source.toNat / 256 % 16) = true ∧ 0x10 ≤ source.toNat % 256 ∧
        source.toNat % 256 ≤ 0x33 ∧ good = false ∧ copy = source.toNat % 256 - 0x10 ∧ store = copy % 9) ∨
      (source.toNat / 4096 = 2 ∧ source.toNat / 256 % 16 < 4 ∧ hbmThere s (source.toNat / 256 % 16) = true ∧
        source.toNat % 256 = 0x14 ∧ copy = 0 ∧ store = 9) →
    exec (.csParityRepair source bank word good) s = .next ((s.setStore store (bank == 1) (patch (s.storeBank store (bank == 1))
      (wordBytes store * word.toNat) (slice (bankOf store (storeImage b store)) (wordBytes store * word.toNat) (wordBytes store)))).raise
        source.toNat 0x060 2 1 (copy * 2 ^ 40 + bank.toNat * 2 ^ 32 + word.toNat)))

/-- The commands on rule sets complete (R109 to R118, Table 4.13): a set is opened, changed, sealed by its commit and discarded by
its abort; BUSY while one is open or sealed, NO_STAGE where none is, VERSION_LIMIT at 64 profile and node changes; control
stores take images for the bank that the ACTIVE version does not use. -/
def Obligations.RuleSetCommandsComplete : Prop :=
  (∀ (s : State) (sub : Sub) (e : Exec), s.ready Cat.rulesetOpen sub 0 e = true →
    (s.vers.stage = none → exec (.rulesetOpen sub) s = .next (State.done { s with vers := { s.vers with
      stage := some { rules := [], profiles := [], nodes := [], loaded := 0 } } } Cat.rulesetOpen sub e
        (s.vers.nextVer.setWidth 384))) ∧
    (s.vers.stage ≠ none → exec (.rulesetOpen sub) s = .next (s.refused sub e .busy))) ∧
  (∀ (s : State) (sub : Sub) (e : Exec) (g : Stage), s.ready Cat.rulesetAbort sub 0 e = true → s.vers.stage = some g →
    (s.vers.commit = none → exec (.rulesetAbort sub) s = .next (State.done { s with vers := { s.vers with stage := none } }
      Cat.rulesetAbort sub e 0)) ∧
    (s.vers.commit ≠ none → exec (.rulesetAbort sub) s = .next (s.refused sub e .busy))) ∧
  (∀ (s : State) (sub : Sub) (e : Exec), s.ready Cat.rulesetAbort sub 0 e = true → s.vers.commit = none → s.vers.stage = none →
    exec (.rulesetAbort sub) s = .next (s.refused sub e .noStage)) ∧
  (∀ (s : State) (sub : Sub) (e : Exec), s.ready Cat.versionStatusGet sub 0 e = true →
    exec (.versionStatusGet sub) s = .next (s.done Cat.versionStatusGet sub e (versionStatus s))) ∧
  (∀ (s : State) (sub : Sub) (e : Exec) (n : BitVec 4) (count : BitVec 5) (x : BitVec 176) (g : Stage),
    s.ready Cat.keyProfileSet sub (pack 384 [(3, 0, n.toNat), (8, 4, count.toNat), (191, 16, x.toNat)]) e = true →
    badProfile count.toNat x = false → s.vers.commit = none → s.vers.stage = some g →
    (Map.find g.profiles n.toNat ≠ none ∨ g.profiles.length + g.nodes.length < 64 → exec (.keyProfileSet sub n count x) s =
      .next (State.done { s with vers := { s.vers with stage := some { g with
        profiles := Map.ins g.profiles n.toNat (extractsOf count.toNat x) } } } Cat.keyProfileSet sub e 0)) ∧
    (Map.find g.profiles n.toNat = none → 64 ≤ g.profiles.length + g.nodes.length →
      exec (.keyProfileSet sub n count x) s = .next (s.refused sub e .versionLimit))) ∧
  (∀ (s : State) (sub : Sub) (e : Exec) (d : BitVec 128) (g : Stage), s.ready Cat.parseNodeSet sub (d.setWidth 384) e = true →
    badNode s d = false → s.vers.commit = none → s.vers.stage = some g → g.profiles.length + g.nodes.length < 64 →
    exec (.parseNodeSet sub d) s = .next (State.done { s with vers := { s.vers with stage := some { g with
      nodes := Map.ins g.nodes (nodeCode d) (if bitAt d 119 then none else some d) } } } Cat.parseNodeSet sub e 0)) ∧
  (∀ (s u : State) (sub : Sub) (e f : Exec) (buf : Addr) (len : BitVec 32) (mask : BitVec 10) (img : List Byte) (g : Stage),
    Acting s Cat.csStageLoad sub (pack 384 [(63, 0, buf.toNat), (95, 64, len.toNat), (105, 96, mask.toNat)]) (storeDoms mask s) e u f →
    misaligned buf = false → segMask img = mask.toNat → (bitAt mask 9 = false ∨ s.fuses.member ≠ 3) → u.vers.commit = none →
    u.vers.stage = some g → (bitsSet 10 mask.toNat).any (bankBusy u) = false →
    (csOk u img = false → exec (.csStageLoad sub buf len mask (some img)) s = .next (u.refused sub f .badSignature)) ∧
    (csOk u img = true → exec (.csStageLoad sub buf len mask (some img)) s = .next (State.done
      (foldNats (bitsSet 10 mask.toNat) (fun a i => a.setStore i (stagingBank u i) (bankOf i (storeImage img i)))
        { u with vers := { u.vers with stage := some { g with loaded := g.loaded ||| mask } } }) Cat.csStageLoad sub f 0))) ∧
  (∀ (s u : State) (sub : Sub) (e f : Exec) (buf : Addr) (len : BitVec 32) (mask : BitVec 10),
    Acting s Cat.csStageLoad sub (pack 384 [(63, 0, buf.toNat), (95, 64, len.toNat), (105, 96, mask.toNat)]) (storeDoms mask s) e u f →
    misaligned buf = false → (bitAt mask 9 = false ∨ s.fuses.member ≠ 3) →
    exec (.csStageLoad sub buf len mask none) s = .next (u.refused sub f .dmaError)) ∧
  (∀ (s : State) (sub : Sub) (e : Exec) (limit : BitVec 32) (g : Stage) (w : BitVec 1),
    s.ready Cat.rulesetCommit sub (pack 384 [(31, 0, limit.toNat), (32, 32, w.toNat)]) e = true → s.vers.commit = none →
    s.vers.stage = some g → (w = 0 ∨ 1 ≤ limit.toNat ∧ limit.toNat ≤ 1000000) →
    (drainSlot s = none → exec (.rulesetCommit sub limit w) s = .next ((s.startBuild (CommitJob.mk sub.queue sub.index true
      (s.tbNs + 1000 * limit.toNat) none [])).begun sub e)) ∧
    (drainSlot s ≠ none → w = 0 → exec (.rulesetCommit sub limit w) s = .next (s.refused sub e .busy)) ∧
    (drainSlot s ≠ none → w = 1 → exec (.rulesetCommit sub limit w) s = .next (State.begun { s with vers := { s.vers with
      commit := some (CommitJob.mk sub.queue sub.index true (s.tbNs + 1000 * limit.toNat) none []) } } sub e)))

/-- The rows of a commit and its drain complete (R116, R117): at T the built slot becomes ACTIVE and the old one DRAINING, the set
is closed, and the command completes with the version's handle and T; a slot no header is in flight under is freed, its
visibility cleared; a drain that takes more than 1 ms is told once; a commit that waits goes on when nothing drains, and ends
with BUSY at its limit. -/
def Obligations.VersionRowsComplete : Prop :=
  (∀ (s : State) (j : CommitJob) (t : TimeVal) (old new : Bool), switchDue s = some (j, t) → old = s.activeSlot → new = !old →
    ∃ u : State, u = ((((s.setSlot new { s.slotOf new with state := .active }).setSlot old { s.slotOf old with
        state := .draining }).dropCommitVotes j).modVers (fun v => VerState.advance { v with
          stage := none, commit := none, drainNs := s.tbNs, slowRaised := false })).auditEvent 0x10
            ((s.slotOf new).number.setWidth 64) s.qual s.qual t ∧
      exec .switchTime s = .next (u.finishAt j.queue.toNat j.index .ok 20 (pack 384 [
        (159, 128, (verHandle (s.slotOf new).gen (s.slotOf new).number).toNat), (127, 0, t.toNat)]))) ∧
  (∀ (s : State) (b : Bool), drainSlot s = some b → s.inFlight b = 0 → s.canHold 0 = true → s.mode ≠ .reset → s.mode ≠ .lockout →
    exec .versionDrained s = .next (((s.modTables (fun t => { t with acl := clearVis t.acl b })).setSlot b VSlot.reset).postHeld 0 8 0
      (pack 320 [(159, 32, s.now.toNat), (31, 0, (verHandle (s.slotOf b).gen (s.slotOf b).number).toNat)]))) ∧
  (∀ (s : State) (b : Bool), drainSlot s = some b → s.vers.slowRaised = false → s.vers.drainNs + 1000000 ≤ s.tbNs →
    exec .verDrainSlow s = .next (State.raise { s with vers := { s.vers with slowRaised := true } } 0x1001 0x062 0 1
      (s.slotOf b).number.toNat)) ∧
  (∀ (s : State) (j : CommitJob), s.vers.commit = some j → j.waiting = true →
    (drainSlot s = none → s.mode ≠ .reset → s.mode ≠ .lockout → exec .commitResume s = .next (s.startBuild j)) ∧
    (j.limitNs ≤ s.tbNs → exec .commitWaitLimit s = .next (State.finishAt { s with vers := { s.vers with commit := none } }
      j.queue.toNat j.index .busy 0 0)))

/-- Version numbers (R111): they run from 1 to 0xFFFF and then on from 1 under the next generation; 0 is never one. -/
def Obligations.VersionNumbers : Prop :=
  ∀ v : VerState, v.nextVer ≠ 0 → v.advance.nextVer ≠ 0 ∧ (v.nextVer = 0xFFFF → v.advance.nextVer = 1 ∧
    v.advance.verGen = nextGen v.verGen) ∧ (v.nextVer ≠ 0xFFFF → v.advance.nextVer = v.nextVer + 1 ∧ v.advance.verGen = v.verGen)

/-- A rule change in a version (R113, R116, R127): an entry added or changed is visible in the new slot with its staged value, mask
and action; a deleted one is visible there no longer, and is free when it is visible nowhere. The other slot's view does not
change. -/
def Obligations.RuleVisibility : Prop :=
  ∀ (x : AclEntry) (new : Bool) (r : StagedRule),
    (r.delete = true → (x.change new r).vis new = false ∧ (x.change new r).vis (!new) = x.vis (!new) ∧
      (x.vis (!new) = false → x.change new r = AclEntry.free)) ∧
    (r.delete = false → r.action ≠ none → (x.change new r).vis new = true ∧ (x.change new r).vis (!new) = x.vis (!new) ∧
      (∀ v, r.value = some v → (x.change new r).value = v) ∧ (∀ m, r.mask = some m → (x.change new r).mask = m) ∧
      (∀ a, r.action = some a → (x.change new r).action = a))

/-- FLOW_PROFILE_SET writes a profile, IN_USE where a record holds it and its functions change; FLOW_PROFILE_GET reads it;
FLOW_STATUS_GET reports a quadrant's records and starts the peak afresh (R162, R327). FLOW_INSTALL of a new key takes a slot,
its flow ID and location are the result, and an event is posted; a record that is replaced keeps its place; an install waits for a
way of its cache set; NO_ROOM where no slot can be taken, IN_USE for a key that exists without REPLACE, UNIT_ABSENT on the
CX-2048E; FLOW_DELETE removes a record, at once or once no header is parked at it; FLOW_GET reads one by its flow
ID and location; NOT_FOUND where there is none (R171 to R173, Tables 6.11 and 12.7). -/
def Obligations.FlowCommandsComplete : Prop :=
  ((∀ (s u : State) (sub : Sub) (e f : Exec) (buf : Addr) (n : BitVec 6) (b : List Byte) (p : BitVec 512),
    Acting s Cat.flowProfileSet sub (pack 384 [(63, 0, buf.toNat), (69, 64, n.toNat)]) ((quadsThere s).map (44 + ·)) e u f →
    misaligned buf = false → p = BitVec.ofNat 512 (leNat (b.take 64)) → badFlowProfile s p = false → s.fuses.member ≠ 3 →
    (fld p 511 507 = fld (profileAt u n.toNat) 511 507 ∨ profileHeld u n.toNat = false →
      exec (.flowProfileSet sub buf n (some b)) s = .next (State.done { u with tables := { u.tables with
        profiles := Map.put 0 u.tables.profiles n.toNat p } } Cat.flowProfileSet sub f 0)) ∧
    (fld p 511 507 ≠ fld (profileAt u n.toNat) 511 507 → profileHeld u n.toNat = true →
      exec (.flowProfileSet sub buf n (some b)) s = .next (u.refused sub f .inUse)) ∧
    exec (.flowProfileSet sub buf n none) s = .next (u.refused sub f .dmaError)) ∧
  (∀ (s u : State) (sub : Sub) (e f : Exec) (buf : Addr) (n : BitVec 6),
    Acting s Cat.flowProfileGet sub (pack 384 [(63, 0, buf.toNat), (69, 64, n.toNat)]) [44] e u f → misaligned buf = false →
    s.fuses.member ≠ 3 → exec (.flowProfileGet sub buf n) s = .next ((u.writeBuf buf
      (leBytes 64 (profileAt u n.toNat).toNat)).done Cat.flowProfileGet sub f 0)) ∧
  (∀ (s u : State) (sub : Sub) (e f : Exec) (q : QuadNo),
    Acting s Cat.flowStatusGet sub (pack 384 [(1, 0, q.toNat)]) [44 + q.toNat] e u f → hbmThere s q.toNat = true →
    exec (.flowStatusGet sub q) s = .next ((u.modQuad q.toNat (fun x => { x with pendPeak := pendUsed u q.toNat })).done
      Cat.flowStatusGet sub f (pack 384 [(31, 0, countFlows u q.toNat (fun _ => true)),
        (63, 32, countFlows u q.toNat (fun r => bitAt r 1022)), (95, 64, countFlows u q.toNat recTwin),
        (112, 96, pendUsed u q.toNat), (144, 128, (u.quad q.toNat).pendPeak), (255, 192, (u.quad q.toNat).flowSeq.toNat)])))) ∧
  ((∀ (s u : State) (sub : Sub) (e f : Exec) (buf : Addr) (w : BitVec 1) (b : List Byte) (r : BitVec 1024),
    Acting s Cat.flowInstall sub (pack 384 [(63, 0, buf.toNat), (64, 64, w.toNat)]) (blockDoms (some b) s) e u f →
    misaligned buf = false → r = BitVec.ofNat 1024 (leNat (b.take 128)) → badBlock s r = false → s.fuses.member ≠ 3 →
    (∀ x, flowFind u (blockKey r).1 = some x → w = 0 →
      exec (.flowInstall sub buf w (some b)) s = .next (u.refused sub f .inUse)) ∧
    (∀ loc x, flowFind u (blockKey r).1 = some (loc, x) → w = 1 →
      (parkedAt u loc x = true → exec (.flowInstall sub buf w (some b)) s = .next (u.begun sub f)) ∧
      (parkedAt u loc x = false → (∀ k, blockSnat u r = some k → (u.dropFlow loc).tables.snat.contains k = false) →
        (∀ t new, u.installBlock r (some (loc, x)) = .done t new → new = loc ∧
          exec (.flowInstall sub buf w (some b)) s = .next (t.agents.done Cat.flowInstall sub f
            (pack 384 [(63, 0, flowIdAt t loc), (89, 64, loc)]))) ∧
        (∀ l, u.installBlock r (some (loc, x)) = .wait l →
          exec (.flowInstall sub buf w (some b)) s = .next ((u.countPart (locPart l) 227).begun sub f)))) ∧
    (flowFind u (blockKey r).1 = none → (∀ k, blockSnat u r = some k → u.tables.snat.contains k = false) →
      (u.installBlock r none = .full → exec (.flowInstall sub buf w (some b)) s = .next (u.refused sub f .noRoom)) ∧
      (∀ l, u.installBlock r none = .wait l →
        exec (.flowInstall sub buf w (some b)) s = .next ((u.countPart (locPart l) 227).begun sub f)) ∧
      (∀ t loc, u.installBlock r none = .done t loc → exec (.flowInstall sub buf w (some b)) s =
        .next ((((t.countPart (locPart loc) 230).postFlow 1 (recProfile r) (flowIdAt t loc) loc (0, 0)).agents).done
          Cat.flowInstall sub f (pack 384 [(63, 0, flowIdAt t loc), (89, 64, loc)]))))) ∧
  (∀ (s : State) (sub : Sub) (e : Exec) (buf : Addr) (w : BitVec 1) (data : HostData), s.fuses.member = 3 →
    s.ready Cat.flowInstall sub (pack 384 [(63, 0, buf.toNat), (64, 64, w.toNat)]) e = true →
    exec (.flowInstall sub buf w data) s = .next (s.refused sub e .unitAbsent)) ∧
  (∀ (s : State) (sub : Sub) (e : Exec) (buf : Addr) (w : BitVec 1),
    s.ready Cat.flowInstall sub (pack 384 [(63, 0, buf.toNat), (64, 64, w.toNat)]) e = true → misaligned buf = false →
    s.fuses.member ≠ 3 → exec (.flowInstall sub buf w none) s = .next (s.refused sub e .dmaError)) ∧
  (∀ (s u : State) (sub : Sub) (e f : Exec) (key : BitVec 310) (k : FKey × Bool),
    Acting s Cat.flowDelete sub (key.setWidth 384) (keyDoms s (some k)) e u f → flowKeyOf key = some k → s.fuses.member ≠ 3 →
    (flowFind u k.1 = none → exec (.flowDelete sub key) s = .next (u.refused sub f .notFound)) ∧
    (∀ loc x, flowFind u k.1 = some (loc, x) → parkedAt u loc x = false →
      exec (.flowDelete sub key) s = .next ((u.dropFlow loc).agents.done Cat.flowDelete sub f 0)) ∧
    (∀ loc x, flowFind u k.1 = some (loc, x) → parkedAt u loc x = true →
      exec (.flowDelete sub key) s = .next (u.begun sub f))) ∧
  (∀ (s u : State) (sub : Sub) (e f : Exec) (buf : Addr) (id : BitVec 64) (loc : BitVec 26),
    Acting s Cat.flowGet sub (pack 384 [(63, 0, buf.toNat), (127, 64, id.toNat), (153, 128, loc.toNat)])
      (flowDoms (locQuad loc.toNat)) e u f → misaligned buf = false → loc.toNat < 33554432 → hbmThere s (locQuad loc.toNat) = true →
    (flowAt u loc.toNat = none → exec (.flowGet sub buf id loc) s = .next (u.refused sub f .notFound)) ∧
    (∀ x, flowAt u loc.toNat = some x → recFlowId x.record ≠ id.toNat →
      exec (.flowGet sub buf id loc) s = .next (u.refused sub f .notFound)) ∧
    (∀ x, flowAt u loc.toNat = some x → recFlowId x.record = id.toNat → exec (.flowGet sub buf id loc) s =
      .next ((u.writeBuf buf (leBytes 128 x.record.toNat)).done Cat.flowGet sub f 0))))

/-- The headers that wait for a fetch resume in order, each with the trap that its routine meets, and the fills that wait for a way of
its set go on (R158, R161). -/
def Sys2Proof.Machine.fetchResumed (p loc : Nat) (parked : List FlowHdr) (upsets : List Upset) (s : State) : State :=
  let v := if (flowAt s loc).isSome then s.modPart p (fun x => x.touch loc) else s
  ((v.countSlice p 226 (parked.countP (falseMatch v loc))).resumeAll (p / 4) parked upsets).unpinned p loc

/-- Infuser's rows complete (R150, R154, R158, R161, R169, R174): where Infuser runs, the oldest header of a partition's input runs;
a fetch returns, an error corrected is a WARNING and one not corrected loses the record; a fetch is abandoned 20 us after its
issue, its headers take the no-state path; the sweep, due once per second of device time, visits every slot of its partition. -/
def Obligations.InfuserRowsComplete : Prop :=
  (∀ (s u : State) (p : SliceNo) (h : FlowHdr) (rest : List FlowHdr), (s.part p.toNat).input = h :: rest →
    infuserRuns s (p.toNat / 4) = true → u = s.modPart p.toNat (fun x => { x with input := rest }) →
    exec (.infuserHeader p .none) s = .next (u.runHeader h true) ∧
    (∀ st bank word loc, exec (.infuserHeader p (.csParity st bank word loc)) s = .next (u.abandonHdr h (p.toNat / 4) 4 0)) ∧
    (∀ st loc mpc, exec (.infuserHeader p (.nullWord st loc mpc)) s = .next (u.abandonHdr h (p.toNat / 4) 6 mpc.toNat)) ∧
    (∀ t loc, exec (.infuserHeader p (.tableParity t loc)) s =
      .next (u.runHeader { h with upset := .tableParity t loc } true)) ∧
    (∀ st loc mpc, exec (.infuserHeader p (.budget st loc mpc)) s = .next (u.runHeader h true))) ∧
  (∀ (s u : State) (p : SliceNo) (loc : BitVec 25) (f : Fetch) (us : List Upset), fetchAt s p.toNat loc.toNat = some f →
    infuserRuns s (p.toNat / 4) = true → u = s.endFetch p.toNat f →
    exec (.fetchReturn p loc ⟨.good, us⟩) s = .next (fetchResumed p.toNat loc.toNat f.parked us u) ∧
    exec (.fetchReturn p loc ⟨.corrected, us⟩) s = .next (fetchResumed p.toNat loc.toNat f.parked us
      (u.raise (0x2010 + 0x100 * (p.toNat / 4) + p.toNat % 4) 0x072 1 1 loc.toNat)) ∧
    exec (.fetchReturn p loc ⟨.uncorrectable, us⟩) s =
      .next (fetchResumed p.toNat loc.toNat f.parked us (u.loseRecord p.toNat loc.toNat)) ∧
    (f.issueNs + 20000 ≤ s.tbNs → exec (.flowFetchTimeout p loc) s = .next ((f.parked.foldl (fun a h => a.noState h.restored)
      ((u.countPart p.toNat 229).raise (0x2010 + 0x100 * (p.toNat / 4) + p.toNat % 4) 0x071 2 1 loc.toNat)).unpinned
        p.toNat loc.toNat))) ∧
  (∀ (s : State) (p : SliceNo), infuserRuns s (p.toNat / 4) = true →
    (∀ mark, sweepDue s p.toNat = some mark → exec (.flowSweep p) s =
      .next (State.agents ((s.tables.flows.filter (fun e => locPart e.1 == p.toNat)).foldl (fun a e => a.sweepSlot e.1)
        (s.modTables (fun t => { t with sweepMark := Map.ins t.sweepMark p.toNat mark }))))) ∧
    (sweepDue s p.toNat = none → exec (.flowSweep p) s = .next s))

/-- The commands on buffers and VOQs complete (R178, R181, R193, Table 7.10): a class's values are written to one slice or to all
and read back; a flush of a VOQ discards its frames and completes at once, or when the walk of its segment is done: the walk returns
the spill cells that it reaches, and loses those behind a link that it can not read (R194). -/
def Obligations.BufferCommandsComplete : Prop :=
  (∀ (s u : State) (sub : Sub) (e f : Exec) (h : Handle) (c : ClassNo) (v : BitVec 32),
    Acting s Cat.bufClassSet sub (pack 384 [(31, 0, h.toNat), (34, 32, c.toNat), (95, 64, v.toNat)])
      ((classSlices s h).map (4 + ·)) e u f → badBufClass v = false → (bitAt v 31 = false ∨ s.fuses.member ≠ 3) →
    exec (.bufClassSet sub h c v) s = .next ((State.agents (foldNats (classSlices u h)
      (fun a sl => a.modSlice sl (fun x => { x with bufClass := Map.ins x.bufClass c.toNat v })) u)).done Cat.bufClassSet sub f 0)) ∧
  (∀ (s u : State) (sub : Sub) (e f : Exec) (h : Handle) (c : ClassNo),
    Acting s Cat.bufClassGet sub (pack 384 [(31, 0, h.toNat), (34, 32, c.toNat)]) [4 + fld h 19 0] e u f →
    exec (.bufClassGet sub h c) s = .next (u.done Cat.bufClassGet sub f (((u.slice (fld h 19 0)).classReg c.toNat).setWidth 384))) ∧
  (∀ (s u t : State) (sub : Sub) (e f : Exec) (h : Handle) (n : Nat),
    Acting s Cat.voqFlush sub (pack 384 [(31, 0, h.toNat)]) [4 + voqSlice (fld h 19 0)] e u f →
    u.discardVoq (fld h 19 0) = (t, n) →
    ((t.voq (fld h 19 0)).state = .onDie → exec (.voqFlush sub h) s =
      .next (t.done Cat.voqFlush sub f ((BitVec.ofNat 32 (sat 32 n)).setWidth 384))) ∧
    ((t.voq (fld h 19 0)).state ≠ .onDie → exec (.voqFlush sub h) s = .next ((t.modVoq (fld h 19 0) (fun y => { y with
      waiters := y.waiters ++ [(sub.queue, sub.index, BitVec.ofNat 32 (sat 32 n))] })).begun sub f))) ∧
  (∀ (s t : State) (sl : SliceNo) (w : BitVec 13) (v n : Nat) (r : Runs) (ecc : SpillEcc), v = 8192 * sl.toNat + w.toNat →
    (s.voq v).state = .flushing → r = (s.voq v).walk → n = min (unreachedBy ecc) (Runs.count r) →
    t = ((s.spillGive (voqSlice v / 4) (Runs.split (Runs.count r - n) r).1).loseCells (voqSlice v / 4) n).spillFault
      (voqSlice v / 4) ecc →
    exec (.flushWalkDone sl ⟨w, ecc⟩) s = .next (State.endFlush (t.modVoq v (fun y => { y with walk := [], state := .onDie })) v))

/-- The commands and rows of gate lists complete (R217, R218, R220, R221, R328, Tables 8.8 to 8.10): a list is pending until its
START, the earliest boundary at least 4 us away, and is its result; BUSY while one is pending or, for an abort, within 2 us of
START; both lists are read; the pending one takes over at START, by the device time of the port's slice (R240); the frames that
wait as a gate closes are counted. -/
def Obligations.GateCommandsComplete : Prop :=
  (∀ (s u : State) (sub : Sub) (e f : Exec) (base : TimeVal) (cycle : BitVec 32) (n : BitVec 11) (buf : Addr) (g : Handle)
    (bs : List Byte) (x : Port) (p : Nat) (l : GateList), p = fld g 19 0 →
    Acting s Cat.gateListSet sub (pack 384 [(319, 192, base.toNat), (191, 160, cycle.toNat), (138, 128, n.toNat),
      (127, 64, buf.toNat), (63, 32, g.toNat)]) [4 + p / 64] e u f → misaligned buf = false → badTime base = false →
    1000 ≤ cycle.toNat → cycle.toNat ≤ 1000000000 → n.toNat ≤ 1024 → u.port p = some x →
    l = { base := base, cycle := cycle.toNat, start := startOf (ofTime base) cycle.toNat u.time.dev,
          entries := (gateEntries n.toNat bs).map (fun e => (BitVec.ofNat 8 (fld e 63 56), fld e 31 0)) } →
    (x.gatePend ≠ none → exec (.gateListSet sub base cycle n buf g (some bs)) s = .next (u.refused sub f .busy)) ∧
    (x.gatePend = none → exec (.gateListSet sub base cycle n buf g none) s = .next (u.refused sub f .dmaError)) ∧
    (x.gatePend = none → (gateEntries n.toNat bs).any badGateEntry = true →
      exec (.gateListSet sub base cycle n buf g (some bs)) s = .next (u.refused sub f .badParam)) ∧
    (x.gatePend = none → (gateEntries n.toNat bs).any badGateEntry = false →
      exec (.gateListSet sub base cycle n buf g (some bs)) s = .next ((u.modPort p (fun y => { y with gatePend := some l })).done
        Cat.gateListSet sub f ((timeOf l.start).setWidth 384)))) ∧
  (∀ (s u : State) (sub : Sub) (e f : Exec) (g : Handle) (len : BitVec 32) (buf : Addr) (x y : Port) (p : Nat) (bs : List Byte),
    p = fld g 19 0 → Acting s Cat.gateListGet sub (pack 384 [(31, 0, g.toNat), (63, 32, len.toNat), (127, 64, buf.toNat)])
      [4 + p / 64] e u f → misaligned buf = false → s.port p = some y → u.port p = some x →
    128 + 8 * (gateCount y.gateOper + gateCount y.gatePend) ≤ len.toNat →
    bs = gateBlock x.gateOper true u.time.dev ++ gateBlock x.gatePend false u.time.dev →
    exec (.gateListGet sub g len buf) s = .next ((u.writeBuf buf bs).done Cat.gateListGet sub f (BitVec.ofNat 384 bs.length))) ∧
  (∀ (s u : State) (sub : Sub) (e f : Exec) (g : Handle) (x : Port) (p : Nat), p = fld g 19 0 →
    Acting s Cat.gateListAbort sub (pack 384 [(31, 0, g.toNat)]) [4 + p / 64] e u f → u.port p = some x →
    (x.gatePend = none → exec (.gateListAbort sub g) s = .next (u.refused sub f .notFound)) ∧
    (∀ l, x.gatePend = some l → l.start < u.time.dev + 2000 * nsUnit →
      exec (.gateListAbort sub g) s = .next (u.refused sub f .busy)) ∧
    (∀ l, x.gatePend = some l → u.time.dev + 2000 * nsUnit ≤ l.start →
      exec (.gateListAbort sub g) s = .next ((u.modPort p (fun y => { y with gatePend := none })).done Cat.gateListAbort sub f 0))) ∧
  (∀ (s : State) (p : PortNo) (x : Port), s.port p.toNat = some x →
    (∀ l, x.gatePend = some l → l.start ≤ s.sliceDev (p.toNat / 64) → exec (.gateListStart p) s = .next (State.modPort
      (foldNats (classes.filter (fun c => !l.opens c l.start && x.gateOper.all (fun o => o.opens c (l.start - 1))))
        (fun a c => a.countWaits p.toNat c) s) p.toNat (fun y => { y with gateOper := some l, gatePend := none }))) ∧
    (∀ l g now began, now = s.sliceDev (p.toNat / 64) → x.gateAt now = some l → l.segAt now = some g →
      began = now - (l.pos now - g.lo * nsUnit) → exec (.gateEntryChange p) s = .next (foldNats
        (classes.filter (fun c => !bitAt g.gates c && decide (0 < began) && x.gateOpen c (began - 1)))
          (fun a c => a.countWaits p.toNat c) s)))

/-- The rows of pause and PFC complete (R79 to R82): a pause or PFC frame sets the pause of the classes that the port honours, and
is counted; a port in hold-down discards it; a class that ignores it in a storm is not counted as honoured; a pause ends; a class that has been paused for WD_TIME storms, is an ERROR, and its storm action is taken; it ends
WD_RECOVER after the last XOFF; XOFF is sent again while the class stays paused. -/
def Obligations.PauseRowsComplete : Prop :=
  (∀ (s : State) (p : PortNo) (x : Port), s.port p.toNat = some x → macUp s p.toNat = true → x.held = true →
    ∀ (en : BitVec 8) (qs : List (BitVec 16)) (qu : BitVec 16) (n : Nat) (t : State),
      t = ((s.countPort p.toNat 0 n).countPort p.toNat 1 1).countPort p.toNat 18 1 →
      exec (.pfcReceive p en qs n) s = .next t ∧ exec (.pauseReceive p qu n) s = .next t) ∧
  (∀ (s : State) (p : PortNo) (x : Port), s.port p.toNat = some x → macUp s p.toNat = true → x.held = false →
    (∀ (en : BitVec 8) (qs : List (BitVec 16)) (n : Nat) (t : State) (honoured : State → Nat → State),
      (∀ a c, honoured a c = a.modPort p.toNat (fun y => y.modPause c (pauseClass x s.tbNs (qs.getD c 0).toNat))) →
      t = foldNats ((bitsSet 8 en.toNat).filter (fun c => bitAt x.cfg (40 + c))) (fun a c =>
        if stormIgnores x c then honoured a c else (honoured a c).countPort p.toNat (8 + c) 1)
          ((s.countPort p.toNat 0 n).countPort p.toNat 1 1) →
      ((bitsSet 8 en.toNat).all (fun c => bitAt x.cfg (40 + c)) = true → exec (.pfcReceive p en qs n) s = .next t) ∧
      ((bitsSet 8 en.toNat).all (fun c => bitAt x.cfg (40 + c)) = false →
        exec (.pfcReceive p en qs n) s = .next (t.countPort p.toNat 16 1))) ∧
    (∀ (qu : BitVec 16) (n : Nat) (t : State), t = (s.countPort p.toNat 0 n).countPort p.toNat 1 1 →
      (bitAt x.cfg 15 = false → exec (.pauseReceive p qu n) s = .next (t.countPort p.toNat 16 1)) ∧
      (bitAt x.cfg 15 = true → exec (.pauseReceive p qu n) s = .next ((foldNats classes (fun a c => a.modPort p.toNat
        (fun y => y.modPause c (pauseClass x s.tbNs qu.toNat))) t).countPort p.toNat 7 1)))) ∧
  (∀ (s : State) (p : PortNo) (c : ClassNo) (x : Port), s.port p.toNat = some x →
    (∀ t, (x.pauseOf c.toNat).untilNs = some t → t ≤ s.tbNs → exec (.pauseExpiry p c) s =
      .next (s.modPort p.toNat (fun y => y.modPause c.toNat PauseState.release))) ∧
    (storms s x c.toNat = true → bitAt x.guard 62 = false → exec (.pfcStorm p c) s = .next ((s.modPort p.toNat (fun y =>
      y.modPause c.toNat (fun a => PauseState.release { a with storm := true }))).raise (macSource p.toNat) 0x043 0
        (s.portGenOf p.toNat).toNat (p.toNat + 65536 * c.toNat))) ∧
    (storms s x c.toNat = true → bitAt x.guard 62 = true → exec (.pfcStorm p c) s = .next (((s.modPort p.toNat (fun y =>
      y.modPause c.toNat (fun a => { a with storm := true }))).raise (macSource p.toNat) 0x043 0
        (s.portGenOf p.toNat).toNat (p.toNat + 65536 * c.toNat)).discardToward p.toNat 36 [c.toNat])) ∧
    (∀ t, (x.pauseOf c.toNat).storm = true → (x.pauseOf c.toNat).lastXoff = some t → t + 1000000 * fld x.guard 47 34 ≤ s.tbNs →
      exec (.pfcStormEnd p c) s = .next (s.modPort p.toNat (fun y => y.modPause c.toNat (fun a => { a with storm := false })))) ∧
    (∀ t, (x.ipcOf c.toNat).paused = true → bitAt x.cfg (32 + c.toNat) = true → (x.ipcOf c.toNat).xoffNs = some t →
      t + quantaNs x 65535 / 2 ≤ s.tbNs → exec (.pfcXoffRepeat p c) s = .next (s.sendPause p.toNat c.toNat true)))

/-- A received frame (R46, R71, R79, Tables 3.9 and 3.10): it counts its codewords; a fragment is only counted; a frame too
long, with a code error, an uncorrectable codeword or a bad FCS that the pipe has not started on is only counted; a MAC control frame goes to the MAC; a
frame refused is counted under what refuses it; every other frame runs in its pipe. -/
def Obligations.FrameReceiveCompletes : Prop :=
  ∀ (s t : State) (rx : RxFrame) (p : Nat) (x : Port), p = rx.port.toNat → s.port p = some x → macUp s p = true →
    t = (s.countPort p 32 rx.cwCorrected).countPort p 33 rx.cwUncorrected →
    (rx.bytes.length < 64 → exec (.frameReceive rx) s = .next (t.countPort p 2 1)) ∧
    (∀ n, 64 ≤ rx.bytes.length → macError x rx = some n → (rx.started = false ∨ beAt rx.bytes 12 2 = 0x8808) →
      exec (.frameReceive rx) s = .next (t.countPort p n 1)) ∧
    (∀ n, 64 ≤ rx.bytes.length → macError x rx = some n → rx.started = true → beAt rx.bytes 12 2 ≠ 0x8808 →
      (rxRefused (t.countPort p n 1) p x rx.hdrRate ≠ none → exec (.frameReceive rx) s = .next (t.countPort p n 1)) ∧
      (rxRefused (t.countPort p n 1) p x rx.hdrRate = none → exec (.frameReceive rx) s =
        .next ((t.countPort p n 1).runPipe x { rx with bytes := rx.bytes.take (x.maxFrame + 1) } true))) ∧
    (64 ≤ rx.bytes.length → macError x rx = none → beAt rx.bytes 12 2 = 0x8808 →
      exec (.frameReceive rx) s = .next (t.macControl p rx.bytes)) ∧
    (∀ u, 64 ≤ rx.bytes.length → macError x rx = none → beAt rx.bytes 12 2 ≠ 0x8808 →
      u = (t.countPort p 0 rx.bytes.length).countPort p 1 1 →
      (∀ n, rxRefused u p x rx.hdrRate = some n → exec (.frameReceive rx) s = .next (u.countPort p n 1)) ∧
      (rxRefused u p x rx.hdrRate = none → exec (.frameReceive rx) s = .next (u.runPipe x rx false)))

/-- The rows of the switch core complete (R178, R184 to R186, R214): a grant serves the VOQ whose turn it is with 4 cells, or drops
its head on an uncorrectable error; a cell reaches its egress slice; a plane that fails loses its cells and is an ERROR, a
second one a HALT, and there are six planes; a missing number is given up after 2 us. -/
def Obligations.FabricRowsComplete : Prop :=
  (∀ (s u : State) (p : PortNo) (x : Port) (c sl : Nat) (ecc : BufEcc), s.port p.toNat = some x → s.mode = .run →
    x.egrCells + 4 ≤ x.cellsMax → 4 ≤ egrFree s (p.toNat / 64) → grantOf s p.toNat x = some (c, sl) →
    u = (s.modPort p.toNat (fun y => { (y.modEgr c (fun e => { e with sliceTurn := (sl + 1) % 16 })) with
      grantTurn := (c + 1) % 8 })).bufFault sl false ecc →
    (badEcc ecc = false → exec (.grant p ecc) s = .next (State.sendGranted sl p.toNat c 4 u)) ∧
    (badEcc ecc = true → exec (.grant p ecc) s = .next (u.dropHead (voqIndex sl p.toNat c)))) ∧
  (∀ (s : State) (o : SliceNo) (i : Nat) (c : Cell), (s.fabric.filter (fun c => c.outSlice.toNat == o.toNat))[i]? = some c →
    exec (.fabricCell o i) s = .next (State.arrive { s with fabric := s.fabric.erase c } c)) ∧
  (∀ (s : State) (q : QuadNo) (k : BitVec 3), (6 ≤ k.toNat → exec (.planeFail q k) s = .fault .noSuchUnit) ∧
    (k.toNat < 6 → s.mode ≠ .reset → quadThere s q.toNat = true → bitAt (s.quad q.toNat).planesDown k.toNat = false →
      exec (.planeFail q k) s = .next (((s.loseInFlight (onPlane q.toNat k.toNat)).modQuad q.toNat (fun x => { x with
        planesDown := (s.quad q.toNat).planesDown ||| BitVec.ofNat 6 (2 ^ k.toNat) })).raise (0x2000 + 0x100 * q.toNat + k.toNat) 0x083
          (if (s.quad q.toNat).planesDown = 0 then 2 else 3) 1 k.toNat))) ∧
  (∀ (s : State) (o i : SliceNo) (r : Reorder) (gone : List Frame) (t : Nat) (drop : Cell → Cell), r = (s.slice o.toNat).reorderOf i.toNat →
    r.waitNs = some t → t + 2000 < s.tbNs → gone = incomplete s o.toNat i.toNat →
    drop = (fun c => if c.inSlice.toNat == i.toNat && c.outSlice.toNat == o.toNat && gone.contains c.frame.carried then c.void else c) →
    exec (.fabricSeqTimeout o i) s = .next (State.drainOrder o.toNat i.toNat (r.waiting.length + 1) (State.countSlice
      (foldNats (List.range 512) (fun a k => a.cutVoq gone (8192 * i.toNat + 512 * o.toNat + k)) (State.modReorder (State.egrGive
        { s with
          fabric := s.fabric.map drop
          ports := s.ports.map (fun e => (e.1, if e.1 / 64 = o.toNat then e.2.cutPartly i.toNat else e.2)) } o.toNat
          ((s.ports.map (fun e => if e.1 / 64 = o.toNat then e.2.partlyCells i.toNat else 0)).sum + r.mcCells)) o.toNat i.toNat
        (fun r => { r with
          next := (r.waiting.map (·.seq)).foldl min ((r.waiting.map (·.seq)).headD r.next), waiting := r.waiting.map drop, lost := []
          mcCells := 0, waitNs := none }))) o.toNat 281 gone.length)))

/-- The rows of multicast and spill complete (R191, R192, R194, R196 to R198): the head of a multicast queue takes the grants it can
and its pass starts when it is due, or the head is dropped on an uncorrectable error; after MC_HOLD it is split; spill is read back;
Caddy takes 256 pointers from the head of the ring and returns 256 to its tail; the ring's build ends. -/
def Obligations.MulticastAndSpillComplete : Prop :=
  (∀ (s u : State) (sl : SliceNo) (c : ClassNo) (f : Frame) (rest : List Frame) (g : List Nat),
    ((s.slice sl.toNat).mcqOf c.toNat).frames = f :: rest → s.mode = .run →
    (holdOver s sl.toNat ((s.slice sl.toNat).mcqOf c.toNat) = false → g = newGrants s ((s.slice sl.toNat).mcqOf c.toNat) f →
      u = (foldNats g (fun a e => a.egrTake e f.size) s).modMcq sl.toNat c.toNat (fun m => { m with
        granted := m.granted ++ g, firstGrant := if g.isEmpty then m.firstGrant else some (m.firstGrant.getD s.time.tb) }) →
      (((u.slice sl.toNat).mcqOf c.toNat).granted = [] ∨ passDue u ((u.slice sl.toNat).mcqOf c.toNat) f = false ∨
          planesUp u sl.toNat ((u.slice sl.toNat).mcqOf c.toNat).granted = [] → ∀ ecc, exec (.mcPass sl ⟨c, ecc⟩) s = .next u) ∧
      (((u.slice sl.toNat).mcqOf c.toNat).granted ≠ [] → passDue u ((u.slice sl.toNat).mcqOf c.toNat) f = true →
        planesUp u sl.toNat ((u.slice sl.toNat).mcqOf c.toNat).granted ≠ [] → ∀ ecc,
        (badEcc ecc = false → exec (.mcPass sl ⟨c, ecc⟩) s = .next ((u.bufFault sl.toNat false ecc).pass sl.toNat c.toNat f)) ∧
        (badEcc ecc = true → exec (.mcPass sl ⟨c, ecc⟩) s = .next ((u.bufFault sl.toNat false ecc).mcSpoilt sl.toNat c.toNat f)))) ∧
    (holdOver s sl.toNat ((s.slice sl.toNat).mcqOf c.toNat) = true → exec (.mcSplit sl c) s = .next (((f.pend.foldl
      (fun a e => a.splitCopy sl.toNat f e) (foldNats ((s.slice sl.toNat).mcqOf c.toNat).granted
        (fun a e => a.egrGive e f.size) s)).mcPop sl.toNat c.toNat).nextHead sl.toNat c.toNat))) ∧
  (∀ (s u t : State) (sl : SliceNo) (w : BitVec 13) (v k : Nat) (ecc : SpillEcc) (back lost : List Frame),
    v = 8192 * sl.toNat + w.toNat → u = s.spillRefill (sl.toNat / 4) →
    ((u.voq v).spill = [] → exec (.spillReadback sl (.voq w) ecc) s = .next (s.modVoq v Voq.settled)) ∧
    ((u.voq v).state = .spilling → (u.voq v).spill ≠ [] →
    (u.voq v).onDieCells < 256 → mayRead u sl.toNat (u.voq v).spill = true → readResult (u.voq v).spill ecc = (back, lost, k) →
    t = (((u.spillRead (sl.toNat / 4) (reachedCells (back ++ lost) k)).loseCells (sl.toNat / 4) k).spillLost lost).spillFault
      (sl.toNat / 4) ecc →
    exec (.spillReadback sl (.voq w) ecc) s = .next (((back.foldl (fun a f => (a.readIn f).1.modVoq v (fun y => { y with
      onDie := y.onDie ++ [(a.readIn f).2] })) t).modVoq v (fun y => Voq.settled { y with
        spill := y.spill.drop (back ++ lost).length })).bufVote sl.toNat))) ∧
  (∀ (s u : State) (sl e : SliceNo) (c : ClassNo) (f : Frame) (rest : List Frame), u = s.spillRefill (sl.toNat / 4) →
    mcrOf u sl.toNat e.toNat c.toNat = f :: rest → mayRead u sl.toNat [f] = true → f.size ≤ egrFree u e.toNat →
    planesUp u sl.toNat [e.toNat] ≠ [] →
    (∀ ecc buf b, (buf = .good ∧ (ecc = .good ∨ ∃ n, ecc = .corrected n)) ∨ ecc = .buffer buf →
      b = ((((u.spillRead (sl.toNat / 4) f.spillAt).spillFault (sl.toNat / 4) ecc).setMcr sl.toNat e.toNat c.toNat rest).bufFault
        sl.toNat false buf).readIn f →
      (badEcc buf = false → exec (.spillReadback sl (.residue e c) ecc) s = .next ((State.sendPass sl.toNat b.2 [e.toNat]
        (List.range f.size) (b.1.egrTake e.toNat f.size)).release b.2)) ∧
      (badEcc buf = true → exec (.spillReadback sl (.residue e c) ecc) s = .next ((b.1.countIn f 105).release b.2))) ∧
    (∀ n, exec (.spillReadback sl (.residue e c) (.dataLost n)) s = .next (((u.spillRead (sl.toNat / 4) f.spillAt).spillLost
      [f]).setMcr sl.toNat e.toNat c.toNat rest)) ∧
    (∀ n k, exec (.spillReadback sl (.residue e c) (.linkLost n k)) s = .next (((((u.spillRead (sl.toNat / 4) (reachedCells
      (f :: rest) k)).loseCells (sl.toNat / 4) k).spillLost (f :: rest)).spillFault (sl.toNat / 4) (.linkLost n k)).setMcr
        sl.toNat e.toNat c.toNat []))) ∧
  (∀ (s : State) (q : QuadNo), (s.quad q.toNat).spillReady = true →
    (Runs.count (s.quad q.toNat).caddy < 1024 → 0 < Runs.count (s.quad q.toNat).ring → exec (.caddyRefill q) s =
      .next ((s.modQuad q.toNat (fun y => { y with ring := (Runs.split 256 y.ring).2, caddy := y.caddy ++ (Runs.split 256
        y.ring).1 })).countQuad q.toNat 2 1)) ∧
    (3072 < Runs.count (s.quad q.toNat).caddy → exec (.caddyWriteback q) s =
      .next ((s.modQuad q.toNat (fun y => { y with caddy := (Runs.split 256 y.caddy).2, ring := y.ring ++ (Runs.split 256
        y.caddy).1 })).countQuad q.toNat 3 1))) ∧
  (∀ (s : State) (q : QuadNo), (s.quad q.toNat).spillBuilding = true → exec (.spillBuildDone q) s =
    .next (s.modQuad q.toNat (fun x => { x with
      spillReady := true, spillBuilding := false, ring := Runs.withoutAll x.spillRetired [(0, regionCells)], caddy := []
      lost := 0 })))

/-- A frame of postcards (R340, Table 13.11). -/
def Sys2Proof.Machine.postcardBatch (s : State) (sl : Nat) (l : List (BitVec 256 × Nat)) : Frame :=
  ownFrame (.postcard (BitVec.ofNat 4 sl)) (frameHdr (s.slice sl).pcHdr ++ leBytes 16 (pack 128 [(7, 0, 1), (11, 8, sl),
    (23, 16, l.length), (127, 64, (s.slice sl).pcSeq.toNat)]).toNat ++ l.flatMap (fun r => leBytes 32 r.1.toNat))
    (fld (s.slice sl).pcCfg 46 44)

/-- The rows of transmission complete (R77, R178, R216, R243): a free port chooses a class by the procedure of R216 and starts its
head, or starts nothing; the last byte of a copy whose cells have all arrived leaves: whole, dropped on a buffer error found
before its first byte, or ended with an error code. A postcard frame takes up to 64 records when 64 are ready or 10 us have passed
since its first was made, and is counted as sent or its records as dropped (R340). PTP_TX on a port whose link is up puts its frame
in the egress queue and waits; on another it fails with LINK_DOWN, and with DMA_ERROR where its frame could not be read (R252). -/
def Obligations.TransmitRowsComplete : Prop :=
  (∀ (s u : State) (p : PortNo) (pp : Nat) (ar : BitVec 8) (x x0 y : Port) (sel : List Nat), s.port p.toNat = some x0 →
    txFree s p.toNat x0 = true →
    u = foldNats classes (fun a c => State.dropUnfit ar p.toNat c (x0.egrOf c).queue.length a) s → u.port p.toNat = some y →
    sel = classes.filter (selectable u p.toNat y ar) → x = y.wake sel →
    (chooseClass x sel = none → exec (.transmitDecision p pp ar) s = .next (u.modPort p.toNat (fun _ => x.remember sel))) ∧
    (∀ c e rest, chooseClass x sel = some c → (x.egrOf c).queue = e :: rest → exec (.transmitDecision p pp ar) s =
      .next ((u.startFrame p.toNat x c pp ar e rest).modPort p.toNat (fun z => z.remember sel)))) ∧
  (∀ (s u : State) (p : PortNo) (ecc : BufEcc) (cr : Bool) (x : Port) (e : EqFrame), s.port p.toNat = some x → x.tx = some e →
    s.mode = .run → (e.frame.errored = true ∨ e.short = false) →
    u = (s.bufFault (p.toNat / 64) true ecc).trueCharge p.toNat x e.frame →
    (badEcc ecc = true → cr = false → exec (.frameTransmit p ecc cr) s =
      .next (((u.countIn e.frame 105).lostOwn e.frame).txDone p.toNat)) ∧
    (badEcc ecc = true → cr = true → exec (.frameTransmit p ecc cr) s =
      .next (((u.countIn e.frame 105).endCopy p.toNat x).txDone p.toNat)) ∧
    (badEcc ecc = false → (e.frame.errored = true ∨ x.txTrunc ≠ none) → exec (.frameTransmit p ecc cr) s =
      .next ((u.endCopy p.toNat x).txDone p.toNat)) ∧
    (badEcc ecc = false → e.frame.errored = false → x.txTrunc = none → x.txMax < e.frame.bytes.length →
      e.frame.cutThrough = false → exec (.frameTransmit p ecc cr) s =
      .next (((u.countPort p.toNat 22 1).lostOwn e.frame).txDone p.toNat)) ∧
    (badEcc ecc = false → e.frame.errored = false → x.txTrunc = none → x.txMax < e.frame.bytes.length →
      e.frame.cutThrough = true → exec (.frameTransmit p ecc cr) s = .next ((u.endTx p.toNat).txDone p.toNat)) ∧
    (badEcc ecc = false → e.frame.errored = false → x.txTrunc = none → e.frame.bytes.length ≤ x.txMax →
      exec (.frameTransmit p ecc cr) s = .next (u.sendWhole p.toNat x e.frame))) ∧
  (∀ (s u t : State) (sl : SliceNo) (x : Slice) (sent : Bool), x = s.slice sl.toNat → s.mode = .run → bitAt x.pcCfg 63 = true →
    x.pcQueue ≠ [] → (64 ≤ x.pcQueue.length ∨ ∃ r rest, x.pcQueue = r :: rest ∧ r.2 + 10000 ≤ s.tbNs) →
    u = s.modSlice sl.toNat (fun y => { y with pcQueue := y.pcQueue.drop 64, pcSeq := y.pcSeq + 1 }) →
    u.admitPostcard sl.toNat (postcardBatch s sl.toNat (x.pcQueue.take 64)) = (t, sent) →
    exec (.postcardFrame sl) s = .next (if sent then t.countSlice sl.toNat 352 1 else t.countSlice sl.toNat 353 (x.pcQueue.take 64).length)) ∧
  (∀ (s u : State) (sub : Sub) (e f : Exec) (buf : Addr) (h : Handle) (len : BitVec 16) (po co : BitVec 10) (c : ClassNo)
    (m : BitVec 3) (ref : TimeVal) (bs : List Byte) (p : Nat), p = fld h 19 0 →
    Acting s Cat.ptpTx sub (pack 384 [(319, 256, buf.toNat), (255, 224, h.toNat), (223, 208, len.toNat), (207, 198, po.toNat),
      (197, 188, co.toNat), (187, 185, c.toNat), (184, 182, m.toNat), (127, 0, ref.toNat)]) [4 + p / 64] e u f →
    badPtpTx h buf len.toNat po.toNat co.toNat m.toNat ref s = false →
    exec (.ptpTx sub buf h len po co c m ref none) s = .next (u.refused sub f .dmaError) ∧
    (linkUp u p = false → exec (.ptpTx sub buf h len po co c m ref (some bs)) s = .next (u.refused sub f .linkDown)) ∧
    (linkUp u p = true → exec (.ptpTx sub buf h len po co c m ref (some bs)) s = .next ((u.toEq p c.toNat
      (ownFrame (.ptpTx sub.queue sub.index m po.toNat co.toNat ref) (bs.take len.toNat) c.toNat)
        (BitVec.ofNat 4 (p / 64))).begun sub f)))

/-- The audit commands complete (R270, R273, R281, Table 10.10): the certificates are written to the host, a buffer is posted and
NO_ROOM beyond 64, the posted buffers that hold nothing are given back, and a chain's status is reported. -/
def Obligations.AuditCommandsComplete : Prop :=
  (∀ (s u : State) (sub : Sub) (e f : Exec) (buf : Addr) (len : BitVec 32),
    Acting s Cat.audCertGet sub (pack 384 [(63, 0, buf.toNat), (95, 64, len.toNat)]) [3] e u f → misaligned buf = false →
    8192 ≤ len.toNat → exec (.audCertGet sub buf len) s = .next ((u.writeBuf buf
      (padTo 64 Config.deviceCert ++ Config.intermediateCert)).done Cat.audCertGet sub f
        (pack 384 [(15, 0, Config.deviceCert.length), (31, 16, Config.intermediateCert.length)]))) ∧
  (∀ (s u : State) (sub : Sub) (e f : Exec) (addr : Addr) (len : BitVec 32) (c : BitVec 2) (n : Nat),
    Acting s Cat.audBufPost sub (pack 384 [(63, 0, addr.toNat), (95, 64, len.toNat), (97, 96, c.toNat)]) [3] e u f →
    addr.toNat % 4096 = 0 → len.toNat % 4096 = 0 → 4096 ≤ len.toNat → len.toNat ≤ 1048576 → chainThere s c.toNat = true →
    n = (u.chain c.toNat).posted.length + (if (u.chain c.toNat).buf.isSome then 1 else 0) →
    (64 ≤ n → exec (.audBufPost sub addr len c) s = .next (u.refused sub f .noRoom)) ∧
    (n < 64 → exec (.audBufPost sub addr len c) s = .next ((u.modChain c.toNat (fun x => Chain.touch (hostExport u)
      u.tbNs { x with posted := x.posted ++ [(addr, len.toNat)] })).done Cat.audBufPost sub f 0))) ∧
  (∀ (s u : State) (sub : Sub) (e f : Exec) (c : BitVec 2),
    chainThere s c.toNat = true →
    (Acting s Cat.audBufReclaim sub (pack 384 [(1, 0, c.toNat)]) [3] e u f → exec (.audBufReclaim sub c) s =
      .next ((u.modChain c.toNat (fun x => { x with posted := [] })).done Cat.audBufReclaim sub f
        (BitVec.ofNat 384 (u.chain c.toNat).posted.length))) ∧
    (Acting s Cat.audStatusGet sub (pack 384 [(1, 0, c.toNat)]) [3] e u f → exec (.audStatusGet sub c) s =
      .next (u.done Cat.audStatusGet sub f (audStatusResult u c.toNat))))

/-- A batch of export records as a frame (Table 10.8), its slots as the spool gives them. -/
def Sys2Proof.Machine.exportBatch (s : State) (c : Nat) (l : List ARec) (bad : SpoolErrors) : Frame :=
  ownFrame (.auditExport (BitVec.ofNat 2 c) (s.chain c).exports) (frameHdr s.audit.expHdr ++ leBytes 16 (pack 128 [(7, 0, 1), (9, 8, c),
    (23, 16, ARec.total l), (63, 32, (l.head?.map (fun r => fld r.bits 127 96)).getD 0),
    (127, 64, (l.head?.map (fun r => r.seq.toNat)).getD 0)]).toNat ++ recordBytes (asRead s l bad)) (fld s.audit.cfg 54 52)

/-- The audit rows complete (R267 to R270, R273, R274): a checkpoint falls due by count and by the 10 ms timer; a signature is
written to the oldest unsigned checkpoint, one that both engines failed is UNSIGNED and AUDIT_SIGN a HALT once; a full buffer is
handed back; an export frame is sent; a slot that the HBM gives with an uncorrectable error is exported as read, and is a DEGRADE
(R276). -/
def Obligations.AuditRowsComplete : Prop :=
  (∀ (s : State) (c : BitVec 2), chainThere s c.toNat = true → s.epochOpen = true → s.mode ≠ .lockout →
    exec (.auditCheckpointCount c) s = .next (s.dueCp c.toNat) ∧
    ((s.chain c.toNat).cpNs + 10000000 ≤ s.tbNs → exec (.auditCheckpointTimer c) s = .next (s.checkpoint c.toNat true false))) ∧
  (∀ (s u : State) (c : BitVec 2) (ok : Bool) (r : ARec), ((s.chain c.toNat).spool ++ (s.chain c.toNat).resSys).find?
      (fun r => !r.ready) = some r → chainThere s c.toNat = true → s.mode ≠ .lockout → s.mode ≠ .reset →
    u = s.modChain c.toNat (fun y => Chain.touch (hostExport s) s.tbNs
      (if (s.chain c.toNat).spool.any (fun r => !r.ready) then { y with spool := signFirst (ARec.sign ok) y.spool }
       else { y with resSys := signFirst (ARec.sign ok) y.resSys })) →
    (ok = true ∨ s.audit.signFailed = true → exec (.checkpointSigned c ok) s =
      .next { u with audit := { u.audit with signFailed := !ok } }) ∧
    (ok = false → s.audit.signFailed = false → exec (.checkpointSigned c ok) s = .next (State.raise
      { u with audit := { u.audit with signFailed := true } } 0x1005 0x029 3 1 (c.toNat + 4 * (r.seq.toNat % 2 ^ 46))))) ∧
  (∀ (s : State) (c : BitVec 2) (bad : SpoolErrors) (b : ExportBuf) (l : List ARec), (s.chain c.toNat).buf = some b → chainThere s c.toNat = true →
    s.hostUp = true → hostExport s = true → bufDone s.tbNs b (s.chain c.toNat).forHost = true →
    s.canHold (fld s.audit.cfg 15 0) = true → l = fitting (b.len / 64) (s.chain c.toNat).forHost →
    exec (.auditBufHandback ⟨c, bad⟩) s = .next (State.spoolErrors (State.agents (State.freeSlots (State.modChain ((State.postHeld (s.emit
      (.dma b.addr (recordBytes (asRead s l bad) ++ List.replicate (b.len - 64 * ARec.total l) 0))) (fld s.audit.cfg 15 0) 10 0 (pack 320
        [(63, 0, b.addr.toNat), (95, 64, ARec.total l), (159, 96, (l.head?.map (fun r => r.seq.toNat)).getD 0),
         (161, 160, c.toNat)])).bump (0x30 + c.toNat) 5 (ARec.total l)) c.toNat (fun y => { y with
      buf := none, spool := y.spool.map (fun r => if l.contains r then { r with hostTaken := true } else r) })) c.toNat)) c.toNat l bad)) ∧
  (∀ (s : State) (c : BitVec 2) (bad : SpoolErrors) (l : List ARec), l = fitting (expBatch s) (s.chain c.toNat).forPort → s.mode = .run →
    chainThere s c.toNat = true → portExport s = true → exportReady s = true → l ≠ [] → batchDue s (s.chain c.toNat) l = true →
    exec (.auditExportFrame ⟨c, bad⟩) s = .next (State.spoolErrors (State.toEq (s.modChain c.toNat (fun y => { y with
      spool := y.spool.map (fun r => if l.contains r then { r with portSent := some (s.chain c.toNat).exports } else r)
      exports := (s.chain c.toNat).exports + 1 })) (expPort s) (fld s.audit.cfg 54 52) (exportBatch s c.toNat l bad)
        (BitVec.ofNat 4 (expPort s / 64))) c.toNat l bad))

/-- CTR_SNAPSHOT copies its pages and answers TB_NS; a sampling counter is set with COUNT 0 and read; at THRESH it is reduced by
THRESH and arms a capture, or counts an overrun; a capture posts its event, and one of a microcoded event counts a SAMPLE trap;
one that does not fit its counter changes nothing (R329, R335 to R337). -/
def Obligations.TelemetryComplete : Prop :=
  (∀ (s : State) (sub : Sub) (e : Exec) (buf : Addr) (first : BitVec 16) (n : BitVec 9),
    s.ready Cat.ctrSnapshot sub (pack 384 [(63, 0, buf.toNat), (79, 64, first.toNat), (88, 80, n.toNat)]) e = true →
    misaligned buf = false → 1 ≤ n.toNat → n.toNat ≤ 256 → first.toNat + n.toNat ≤ 65536 → exec (.ctrSnapshot sub buf first n) s =
      .next ((s.writeBuf buf ((List.range n.toNat).flatMap (fun k => pageBytes s (first.toNat + k)))).done Cat.ctrSnapshot sub e
        (BitVec.ofNat 384 (s.tbNs % 2 ^ 64)))) ∧
  (∀ (s u : State) (sub : Sub) (e f : Exec) (h : Handle) (ev q : BitVec 16) (en : BitVec 1) (th : BitVec 64),
    Acting s Cat.sctrSet sub (pack 384 [(31, 0, h.toNat), (47, 32, ev.toNat), (63, 48, q.toNat), (64, 64, en.toNat),
      (191, 128, th.toNat)]) [4 + fld h 19 0 / 32] e u f → eventDefined ev = true → 1 ≤ th.toNat → th.toNat ≤ 2 ^ 48 - 1 →
    exec (.sctrSet sub h ev q en th) s = .next ((u.setSctr (fld h 19 0) (Sctr.mk 0 ev q (en == 1) false th)).done
      Cat.sctrSet sub f 0)) ∧
  (∀ (s u : State) (sub : Sub) (e f : Exec) (h : Handle),
    Acting s Cat.sctrGet sub (pack 384 [(31, 0, h.toNat)]) [4 + fld h 19 0 / 32] e u f →
    exec (.sctrGet sub h) s = .next (u.done Cat.sctrGet sub f (sctrResult (sctrOf u (fld h 19 0))))) ∧
  (∀ (s : State) (i : BitVec 9) (x : Sctr), x = sctrOf s i.toNat → sliceThere s (i.toNat / 32) = true → x.en = true →
    x.thresh.toNat ≤ x.count.toNat →
    (x.armed = true → exec (.sctrCrossing i) s =
      .next ((s.setSctr i.toNat { x with count := x.count - x.thresh }).countSlice (i.toNat / 32) (320 + i.toNat % 32) 1)) ∧
    (x.armed = false → exec (.sctrCrossing i) s =
      .next (s.setSctr i.toNat { x with count := x.count - x.thresh, armed := s.confRun }))) ∧
  (∀ (s : State) (i : BitVec 9) (c : Capture) (x : Sctr), x = sctrOf s i.toNat → x.armed = true → s.confRun = true →
    (captureFits i.toNat x c = false → exec (.sctrCapture i c) s = .next s) ∧
    (captureFits i.toNat x c = true → exec (.sctrCapture i c) s = .next ((if microcoded x.event then (s.setSctr i.toNat
      { x with armed := false }).sampleTrap (i.toNat / 32) c else s.setSctr i.toNat { x with armed := false }).postDropped
        x.queue.toNat 4 (mkHandle 1 13 i.toNat) (samplePayload s x c))))

/-- A register write that does not cover a whole aligned dword is discarded with BAR_ACCESS, one where no register is has no effect,
a read-only register or one that takes no write now discards it with a NOTE, a lower dword is latched and the highest applies
the whole register (R31, R284, R288, R362); at 0xC200, HOLDOFF, a value from 10 to 65,535 is taken and any other is rejected.
DOM_CFG is written in BOOT and CONFIGURE, with SET, and audited, and is discarded with a NOTE in any other mode (R23);
PUNT_METER sets the bucket to BURST and refuses BURST 0 (R107, R108); SAMPLE_CFG draws both countdowns; the two discard a write
to an index that holds no port, with a NOTE. A read returns the whole dword that holds its offset; in LOCKOUT all ones outside the
fault window; 0 in the window of a domain that is not ON (R284, R362); DEV_MODE shows the modes and FAULT_N (R289, R353). -/
def Obligations.RegisterWritesComplete : Prop :=
  (∀ (s : State) (off : BitVec 24), s.mode ≠ .reset → s.dev.pcieUp = true →
    (∀ o : BitVec 24, o.toNat / 4 = off.toNat / 4 → readBar0 s o = readBar0 s off) ∧
    (s.mode = .lockout → off.toNat < 0x1000 ∨ 0x5000 ≤ off.toNat → readBar0 s off = some 0xFFFFFFFF ∧
      ∀ a, readBar2 s a = some 0xFFFFFFFFFFFFFFFF) ∧
    (∀ d, s.mode ≠ .lockout → windowDom (off.toNat / 4 * 4) = some d → s.domOn d = false → readBar0 s off = some 0) ∧
    (s.mode ≠ .lockout → readBar0 s 0x100 = some (pack 32 [(31, 31, s.faultN.toNat), (6, 4, modeCode s.dev.prevMode),
      (2, 0, modeCode s.mode)]))) ∧
  (∀ (s : State) (off : BitVec 24) (v : BitVec 32), s.hostUp = true →
    (∀ en : BitVec 4, (en ≠ 0xF ∨ off.toNat % 4 ≠ 0) →
      exec (.registerWrite off en v) s = .next (s.raise (regionSource off.toNat) 0x002 0 1 off.toNat)) ∧
    (off.toNat % 4 = 0 →
      (targetAt s off.toNat = .nothing → exec (.registerWrite off 0xF v) s = .next s) ∧
      (∀ b src, targetAt s off.toNat = .readOnly b src → exec (.registerWrite off 0xF v) s = .next (s.discardWrite src b)) ∧
      (∀ r, targetAt s off.toNat = .reg r →
        (r.takes = false → exec (.registerWrite off 0xF v) s = .next (s.discardWrite r.source r.base)) ∧
        (r.takes = true → off.toNat + 4 = r.base + 4 * r.dwords →
          exec (.registerWrite off 0xF v) s = .next (r.apply (r.value s v) s)) ∧
        (r.takes = true → off.toNat + 4 ≠ r.base + 4 * r.dwords → exec (.registerWrite off 0xF v) s =
          .next { s with host := { s.host with latch := Map.ins s.host.latch off.toNat v } }))) ∧
    (s.confRun = true →
      (10 ≤ v.toNat % 65536 → exec (.registerWrite 0xC200 0xF v) s =
        .next { s with power := { s.power with holdoffUs := v.setWidth 16 } }) ∧
      (v.toNat % 65536 < 10 → exec (.registerWrite 0xC200 0xF v) s = .next (s.raise 0x1006 0x001 0 1 0xC200)))) ∧
  ((∀ (s : State) (v : BitVec 32), s.hostUp = true →
    (s.mode = .boot ∨ s.mode = .configure → exec (.domCfgWrite v) s = .next (State.auditEvent { s with dev := { s.dev with
      domainId := BitVec.ofNat 16 (fld v 31 16), deviceId := BitVec.ofNat 12 (fld v 15 4), domSet := true } }
      0x12 (pack 64 [(31, 4, fld v 31 4), (0, 0, 1)]) s.qual s.qual s.now)) ∧
    (s.mode ≠ .boot → s.mode ≠ .configure → exec (.domCfgWrite v) s = .next (s.raise 0x1001 0x001 0 1 0x108))) ∧
  (∀ (s : State) (p : PortNo) (v : BitVec 64), s.hostUp = true → sliceThere s (p.toNat / 64) = true →
    (s.port p.toNat = none → exec (.puntMeterWrite p v) s = .next (s.regReject (macSource p.toNat) (portBase p.toNat + 0x18)) ∧
      exec (.sampleCfgWrite p v) s = .next (s.regReject (macSource p.toNat) (portBase p.toNat + 0x28))) ∧
    (∀ x u, s.port p.toNat = some x → s.sliceWritable (p.toNat / 64) = true → u = s.latchLow (portBase p.toNat + 0x18) v →
      (fld v 31 16 = 0 → exec (.puntMeterWrite p v) s = .next (u.regReject (macSource p.toNat) (portBase p.toNat + 0x18))) ∧
      (fld v 31 16 ≠ 0 → exec (.puntMeterWrite p v) s = .next (u.modPort p.toNat (fun x => { x with
        punt := v &&& 0x00FFFFFFFFFF0000, puntTok := 1000000000 * fld v 31 16, puntNs := s.tbNs })))) ∧
    (∀ x u t, s.port p.toNat = some x → s.sliceWritable (p.toNat / 64) = true → u = s.latchLow (portBase p.toNat + 0x28) v →
      t = u.drawn → exec (.sampleCfgWrite p v) s = .next (State.drawn (t.modPort p.toNat (fun x => { x with
        sample := v &&& 0xFEFFFFFFFEFFFFFF, rxCount := drawCount u (fld v 55 32), txCount := drawCount t (fld v 23 0) }))))))
end

