-- ==== Sys2Proof/Laws/Bits.lean ====
section
/-! SUPPORT. A bit of a word that a write has set. -/

namespace Sys2Proof.Machine

@[simp] theorem bitAt_setFld_one (v : BitVec 64) : bitAt (setFld v 63 63 1) 63 = true := by
  have := v.isLt
  unfold bitAt setFld
  simp only [BitVec.toNat_ofNat, Nat.testBit_eq_decide_div_mod_eq, Nat.shiftRight_eq_div_pow]
  simp; omega

@[simp] theorem bitAt_setFld_zero (v : BitVec 64) : bitAt (setFld v 63 63 0) 63 = false := by
  have := v.isLt
  unfold bitAt setFld
  simp only [BitVec.toNat_ofNat, Nat.testBit_eq_decide_div_mod_eq, Nat.shiftRight_eq_div_pow]
  simp; omega

end Sys2Proof.Machine
end

