-- ==== Sys2Proof/Laws/Map.lean ====
section
/-! SUPPORT. Laws of the finite maps: a read after a write, a write leaves every other index alone, and every operation
keeps the canonical form. -/

namespace Sys2Proof.Machine.Map

variable {V : Type}

/-- Indices rise: as a pairwise order. -/
theorem rising_iff (t : Tbl V) : rising t = true ↔ t.Pairwise (fun a b => a.1 < b.1) := by
  induction t with
  | nil => simp [rising]
  | cons a t ih =>
    cases t with
    | nil => simp [rising]
    | cons b t =>
      simp only [rising, Bool.and_eq_true, decide_eq_true_eq, ih, List.pairwise_cons, List.mem_cons]
      constructor
      · rintro ⟨hab, hb, ht⟩
        exact ⟨fun c hc => hc.elim (fun e => e ▸ hab) (fun m => hab.trans (hb c m)), hb, ht⟩
      · rintro ⟨ha, hb, ht⟩
        exact ⟨ha b (.inl rfl), hb, ht⟩

theorem mem_ins {t : Tbl V} {k : Nat} {v : V} {e : Nat × V} (h : e ∈ ins t k v) : e = (k, v) ∨ e ∈ t := by
  induction t with
  | nil => simpa [ins] using h
  | cons a t ih =>
    simp only [ins] at h
    split at h
    · rcases List.mem_cons.1 h with h | h
      · exact .inr (h ▸ List.mem_cons_self ..)
      · exact (ih h).imp_right (List.mem_cons_of_mem _)
    · split at h
      · exact (List.mem_cons.1 h).imp_right (List.mem_cons_of_mem _)
      · exact List.mem_cons.1 h

theorem mem_del {t : Tbl V} {k : Nat} {e : Nat × V} (h : e ∈ del t k) : e ∈ t := by
  induction t with
  | nil => simp [del] at h
  | cons a t ih =>
    simp only [del] at h
    split at h
    · rcases List.mem_cons.1 h with h | h
      · exact h ▸ List.mem_cons_self ..
      · exact List.mem_cons_of_mem _ (ih h)
    · split at h
      · exact List.mem_cons_of_mem _ h
      · exact h

theorem rising_ins {t : Tbl V} (k : Nat) (v : V) (h : rising t = true) : rising (ins t k v) = true := by
  rw [rising_iff] at *
  induction t with
  | nil => simp [ins]
  | cons a t ih =>
    obtain ⟨ha, ht⟩ := List.pairwise_cons.1 h
    simp only [ins]
    split
    next hlt =>
      refine List.pairwise_cons.2 ⟨fun e he => ?_, ih ht⟩
      rcases mem_ins he with rfl | m
      · exact hlt
      · exact ha e m
    next hlt =>
      split
      next heq => exact List.pairwise_cons.2 ⟨fun e he => heq ▸ ha e he, ht⟩
      next hne =>
        refine List.pairwise_cons.2 ⟨fun e he => ?_, h⟩
        have hk : k < a.1 := by omega
        rcases List.mem_cons.1 he with rfl | m
        · exact hk
        · exact hk.trans (ha e m)

theorem rising_del {t : Tbl V} (k : Nat) (h : rising t = true) : rising (del t k) = true := by
  rw [rising_iff] at *
  induction t with
  | nil => simp [del]
  | cons a t ih =>
    obtain ⟨ha, ht⟩ := List.pairwise_cons.1 h
    simp only [del]
    split
    · exact List.pairwise_cons.2 ⟨fun e he => ha e (mem_del he), ih ht⟩
    · split
      · exact ht
      · exact h

/-- A write keeps the canonical form. -/
theorem wf_put [DecidableEq V] (d : V) {t : Tbl V} (k : Nat) (v : V) (h : wf d t = true) : wf d (put d t k v) = true := by
  simp only [wf, Bool.and_eq_true, List.all_eq_true, decide_eq_true_eq] at *
  unfold put
  split
  · exact ⟨rising_del k h.1, fun e he => h.2 e (mem_del he)⟩
  next hv =>
    refine ⟨rising_ins k v h.1, fun e he => ?_⟩
    rcases mem_ins he with rfl | m
    · exact hv
    · exact h.2 e m

theorem wf_upd [DecidableEq V] (d : V) {t : Tbl V} (k : Nat) (f : V → V) (h : wf d t = true) :
    wf d (upd d t k f) = true := wf_put d k _ h

/-- Dropping entries keeps the canonical form. -/
theorem wf_filter [DecidableEq V] (d : V) {t : Tbl V} (p : Nat × V → Bool) (h : wf d t = true) :
    wf d (t.filter p) = true := by
  simp only [wf, Bool.and_eq_true, List.all_eq_true, decide_eq_true_eq] at *
  refine ⟨?_, fun e he => h.2 e (List.mem_filter.1 he).1⟩
  rw [rising_iff] at *
  exact h.1.filter p

/-- A read of the index just written. -/
@[simp] theorem find_ins_self (t : Tbl V) (k : Nat) (v : V) : find (ins t k v) k = some v := by
  induction t with
  | nil => simp [ins, find]
  | cons a t ih =>
    simp only [ins]
    split
    next h => simp only [find, if_neg h.ne, if_pos h, ih]
    next h =>
      split
      · simp [find]
      · simp [find]

/-- A write leaves every other index alone. -/
theorem find_ins_ne (t : Tbl V) {j k : Nat} (v : V) (hjk : j ≠ k) : find (ins t k v) j = find t j := by
  induction t with
  | nil => simp [ins, find, hjk.symm]
  | cons a t ih =>
    obtain ⟨i, w⟩ := a
    simp only [ins]
    split
    · simp only [find]
      split
      · rfl
      · split
        · exact ih
        · rfl
    · split
      next h1 h2 => subst h2; simp only [find, if_neg (Ne.symm hjk)]
      next h1 h2 =>
        simp only [find, if_neg (Ne.symm hjk)]
        split
        · rfl
        · rw [if_neg (by omega), if_neg (by omega)]

@[simp] theorem val_ins_self (t : Tbl V) (k : Nat) (v d : V) : val (ins t k v) k d = v := by simp [val]

theorem val_ins_ne (t : Tbl V) {j k : Nat} (v d : V) (hjk : j ≠ k) : val (ins t k v) j d = val t j d := by
  simp [val, find_ins_ne t v hjk]

/-- An update in place reads back at its index, and leaves every other index alone. -/
theorem find_adjust (t : Tbl V) (k j : Nat) (f : V → V) :
    find (adjust t k f) j = if k = j then (find t k).map f else find t j := by
  induction t with
  | nil => simp [adjust, find]
  | cons a t ih =>
    obtain ⟨i, w⟩ := a
    simp only [adjust, find]
    split <;> rename_i hik
    · subst hik
      simp only [find]
      split <;> simp_all
    · simp only [find, ih]
      split <;> rename_i hij
      · subst hij
        simp [Ne.symm hik]
      · by_cases hkj : k = j
        · subst hkj; split <;> simp_all
        · simp [hkj]

end Sys2Proof.Machine.Map
end

