-- ==== Sys2Proof/Laws/State.lean ====
section
/-! SUPPORT. What each update of the state leaves alone, field by field, so that no proof unfolds a record update; and
what an update's own field reads after it. -/

namespace Sys2Proof.Machine

@[simp] theorem State.emit_frame (s : State) (o : Out) :
    (s.emit o).pending = s.pending ∧ (s.emit o).draws = s.draws ∧ (s.emit o).fuses = s.fuses ∧ (s.emit o).dev = s.dev ∧
    (s.emit o).time = s.time ∧ (s.emit o).faults = s.faults ∧ (s.emit o).power = s.power ∧ (s.emit o).host = s.host ∧
    (s.emit o).ctr = s.ctr ∧ (s.emit o).strainers = s.strainers ∧ (s.emit o).lanes = s.lanes ∧
    (s.emit o).ports = s.ports ∧ (s.emit o).portGen = s.portGen ∧ (s.emit o).slices = s.slices ∧
    (s.emit o).voqs = s.voqs ∧ (s.emit o).fabric = s.fabric ∧ (s.emit o).quads = s.quads ∧
    (s.emit o).tables = s.tables ∧ (s.emit o).vers = s.vers ∧ (s.emit o).audit = s.audit ∧ (s.emit o).ioam = s.ioam ∧
    (s.emit o).synce = s.synce :=
  ⟨rfl, rfl, rfl, rfl, rfl, rfl, rfl, rfl, rfl, rfl, rfl, rfl, rfl, rfl, rfl, rfl, rfl, rfl, rfl, rfl, rfl, rfl⟩

@[simp] theorem State.drawn_frame (s : State) :
    (s.drawn).pending = s.pending ∧ (s.drawn).out = s.out ∧ (s.drawn).fuses = s.fuses ∧ (s.drawn).dev = s.dev ∧
    (s.drawn).time = s.time ∧ (s.drawn).faults = s.faults ∧ (s.drawn).power = s.power ∧ (s.drawn).host = s.host ∧
    (s.drawn).ctr = s.ctr ∧ (s.drawn).strainers = s.strainers ∧ (s.drawn).lanes = s.lanes ∧ (s.drawn).ports = s.ports ∧
    (s.drawn).portGen = s.portGen ∧ (s.drawn).slices = s.slices ∧ (s.drawn).voqs = s.voqs ∧
    (s.drawn).fabric = s.fabric ∧ (s.drawn).quads = s.quads ∧ (s.drawn).tables = s.tables ∧ (s.drawn).vers = s.vers ∧
    (s.drawn).audit = s.audit ∧ (s.drawn).ioam = s.ioam ∧ (s.drawn).synce = s.synce :=
  ⟨rfl, rfl, rfl, rfl, rfl, rfl, rfl, rfl, rfl, rfl, rfl, rfl, rfl, rfl, rfl, rfl, rfl, rfl, rfl, rfl, rfl, rfl⟩

@[simp] theorem State.setPort_frame (s : State) (p : Nat) (v : Port) :
    (s.setPort p v).pending = s.pending ∧ (s.setPort p v).draws = s.draws ∧ (s.setPort p v).out = s.out ∧
    (s.setPort p v).fuses = s.fuses ∧ (s.setPort p v).dev = s.dev ∧ (s.setPort p v).time = s.time ∧
    (s.setPort p v).faults = s.faults ∧ (s.setPort p v).power = s.power ∧ (s.setPort p v).host = s.host ∧
    (s.setPort p v).ctr = s.ctr ∧ (s.setPort p v).strainers = s.strainers ∧ (s.setPort p v).lanes = s.lanes ∧
    (s.setPort p v).portGen = s.portGen ∧ (s.setPort p v).slices = s.slices ∧ (s.setPort p v).voqs = s.voqs ∧
    (s.setPort p v).fabric = s.fabric ∧ (s.setPort p v).quads = s.quads ∧ (s.setPort p v).tables = s.tables ∧
    (s.setPort p v).vers = s.vers ∧ (s.setPort p v).audit = s.audit ∧ (s.setPort p v).ioam = s.ioam ∧
    (s.setPort p v).synce = s.synce :=
  ⟨rfl, rfl, rfl, rfl, rfl, rfl, rfl, rfl, rfl, rfl, rfl, rfl, rfl, rfl, rfl, rfl, rfl, rfl, rfl, rfl, rfl, rfl⟩

@[simp] theorem State.modPort_frame (s : State) (p : Nat) (f : Port → Port) :
    (s.modPort p f).pending = s.pending ∧ (s.modPort p f).draws = s.draws ∧ (s.modPort p f).out = s.out ∧
    (s.modPort p f).fuses = s.fuses ∧ (s.modPort p f).dev = s.dev ∧ (s.modPort p f).time = s.time ∧
    (s.modPort p f).faults = s.faults ∧ (s.modPort p f).power = s.power ∧ (s.modPort p f).host = s.host ∧
    (s.modPort p f).ctr = s.ctr ∧ (s.modPort p f).strainers = s.strainers ∧ (s.modPort p f).lanes = s.lanes ∧
    (s.modPort p f).portGen = s.portGen ∧ (s.modPort p f).slices = s.slices ∧ (s.modPort p f).voqs = s.voqs ∧
    (s.modPort p f).fabric = s.fabric ∧ (s.modPort p f).quads = s.quads ∧ (s.modPort p f).tables = s.tables ∧
    (s.modPort p f).vers = s.vers ∧ (s.modPort p f).audit = s.audit ∧ (s.modPort p f).ioam = s.ioam ∧
    (s.modPort p f).synce = s.synce :=
  ⟨rfl, rfl, rfl, rfl, rfl, rfl, rfl, rfl, rfl, rfl, rfl, rfl, rfl, rfl, rfl, rfl, rfl, rfl, rfl, rfl, rfl, rfl⟩

@[simp] theorem State.modSlice_frame (s : State) (n : Nat) (f : Slice → Slice) :
    (s.modSlice n f).pending = s.pending ∧ (s.modSlice n f).draws = s.draws ∧ (s.modSlice n f).out = s.out ∧
    (s.modSlice n f).fuses = s.fuses ∧ (s.modSlice n f).dev = s.dev ∧ (s.modSlice n f).time = s.time ∧
    (s.modSlice n f).faults = s.faults ∧ (s.modSlice n f).power = s.power ∧ (s.modSlice n f).host = s.host ∧
    (s.modSlice n f).ctr = s.ctr ∧ (s.modSlice n f).strainers = s.strainers ∧ (s.modSlice n f).lanes = s.lanes ∧
    (s.modSlice n f).ports = s.ports ∧ (s.modSlice n f).portGen = s.portGen ∧ (s.modSlice n f).voqs = s.voqs ∧
    (s.modSlice n f).fabric = s.fabric ∧ (s.modSlice n f).quads = s.quads ∧ (s.modSlice n f).tables = s.tables ∧
    (s.modSlice n f).vers = s.vers ∧ (s.modSlice n f).audit = s.audit ∧ (s.modSlice n f).ioam = s.ioam ∧
    (s.modSlice n f).synce = s.synce :=
  ⟨rfl, rfl, rfl, rfl, rfl, rfl, rfl, rfl, rfl, rfl, rfl, rfl, rfl, rfl, rfl, rfl, rfl, rfl, rfl, rfl, rfl, rfl⟩

@[simp] theorem State.modQuad_frame (s : State) (q : Nat) (f : Quad → Quad) :
    (s.modQuad q f).pending = s.pending ∧ (s.modQuad q f).draws = s.draws ∧ (s.modQuad q f).out = s.out ∧
    (s.modQuad q f).fuses = s.fuses ∧ (s.modQuad q f).dev = s.dev ∧ (s.modQuad q f).time = s.time ∧
    (s.modQuad q f).faults = s.faults ∧ (s.modQuad q f).power = s.power ∧ (s.modQuad q f).host = s.host ∧
    (s.modQuad q f).ctr = s.ctr ∧ (s.modQuad q f).strainers = s.strainers ∧ (s.modQuad q f).lanes = s.lanes ∧
    (s.modQuad q f).ports = s.ports ∧ (s.modQuad q f).portGen = s.portGen ∧ (s.modQuad q f).slices = s.slices ∧
    (s.modQuad q f).voqs = s.voqs ∧ (s.modQuad q f).fabric = s.fabric ∧ (s.modQuad q f).tables = s.tables ∧
    (s.modQuad q f).vers = s.vers ∧ (s.modQuad q f).audit = s.audit ∧ (s.modQuad q f).ioam = s.ioam ∧
    (s.modQuad q f).synce = s.synce :=
  ⟨rfl, rfl, rfl, rfl, rfl, rfl, rfl, rfl, rfl, rfl, rfl, rfl, rfl, rfl, rfl, rfl, rfl, rfl, rfl, rfl, rfl, rfl⟩

@[simp] theorem State.modLane_frame (s : State) (l : Nat) (f : Lane → Lane) :
    (s.modLane l f).pending = s.pending ∧ (s.modLane l f).draws = s.draws ∧ (s.modLane l f).out = s.out ∧
    (s.modLane l f).fuses = s.fuses ∧ (s.modLane l f).dev = s.dev ∧ (s.modLane l f).time = s.time ∧
    (s.modLane l f).faults = s.faults ∧ (s.modLane l f).power = s.power ∧ (s.modLane l f).host = s.host ∧
    (s.modLane l f).ctr = s.ctr ∧ (s.modLane l f).strainers = s.strainers ∧ (s.modLane l f).ports = s.ports ∧
    (s.modLane l f).portGen = s.portGen ∧ (s.modLane l f).slices = s.slices ∧ (s.modLane l f).voqs = s.voqs ∧
    (s.modLane l f).fabric = s.fabric ∧ (s.modLane l f).quads = s.quads ∧ (s.modLane l f).tables = s.tables ∧
    (s.modLane l f).vers = s.vers ∧ (s.modLane l f).audit = s.audit ∧ (s.modLane l f).ioam = s.ioam ∧
    (s.modLane l f).synce = s.synce :=
  ⟨rfl, rfl, rfl, rfl, rfl, rfl, rfl, rfl, rfl, rfl, rfl, rfl, rfl, rfl, rfl, rfl, rfl, rfl, rfl, rfl, rfl, rfl⟩

@[simp] theorem State.modVoq_frame (s : State) (v : Nat) (f : Voq → Voq) :
    (s.modVoq v f).pending = s.pending ∧ (s.modVoq v f).draws = s.draws ∧ (s.modVoq v f).out = s.out ∧
    (s.modVoq v f).fuses = s.fuses ∧ (s.modVoq v f).dev = s.dev ∧ (s.modVoq v f).time = s.time ∧
    (s.modVoq v f).faults = s.faults ∧ (s.modVoq v f).power = s.power ∧ (s.modVoq v f).host = s.host ∧
    (s.modVoq v f).ctr = s.ctr ∧ (s.modVoq v f).strainers = s.strainers ∧ (s.modVoq v f).lanes = s.lanes ∧
    (s.modVoq v f).ports = s.ports ∧ (s.modVoq v f).portGen = s.portGen ∧ (s.modVoq v f).slices = s.slices ∧
    (s.modVoq v f).fabric = s.fabric ∧ (s.modVoq v f).quads = s.quads ∧ (s.modVoq v f).tables = s.tables ∧
    (s.modVoq v f).vers = s.vers ∧ (s.modVoq v f).audit = s.audit ∧ (s.modVoq v f).ioam = s.ioam ∧
    (s.modVoq v f).synce = s.synce :=
  ⟨rfl, rfl, rfl, rfl, rfl, rfl, rfl, rfl, rfl, rfl, rfl, rfl, rfl, rfl, rfl, rfl, rfl, rfl, rfl, rfl, rfl, rfl⟩

@[simp] theorem State.modDom_frame (s : State) (d : Nat) (f : Dom → Dom) :
    (s.modDom d f).pending = s.pending ∧ (s.modDom d f).draws = s.draws ∧ (s.modDom d f).out = s.out ∧
    (s.modDom d f).fuses = s.fuses ∧ (s.modDom d f).dev = s.dev ∧ (s.modDom d f).time = s.time ∧
    (s.modDom d f).faults = s.faults ∧ (s.modDom d f).host = s.host ∧ (s.modDom d f).ctr = s.ctr ∧
    (s.modDom d f).strainers = s.strainers ∧ (s.modDom d f).lanes = s.lanes ∧ (s.modDom d f).ports = s.ports ∧
    (s.modDom d f).portGen = s.portGen ∧ (s.modDom d f).slices = s.slices ∧ (s.modDom d f).voqs = s.voqs ∧
    (s.modDom d f).fabric = s.fabric ∧ (s.modDom d f).quads = s.quads ∧ (s.modDom d f).tables = s.tables ∧
    (s.modDom d f).vers = s.vers ∧ (s.modDom d f).audit = s.audit ∧ (s.modDom d f).ioam = s.ioam ∧
    (s.modDom d f).synce = s.synce :=
  ⟨rfl, rfl, rfl, rfl, rfl, rfl, rfl, rfl, rfl, rfl, rfl, rfl, rfl, rfl, rfl, rfl, rfl, rfl, rfl, rfl, rfl, rfl⟩

@[simp] theorem State.modStrainer_frame (s : State) (q : Nat) (f : Strainer → Strainer) :
    (s.modStrainer q f).pending = s.pending ∧ (s.modStrainer q f).draws = s.draws ∧ (s.modStrainer q f).out = s.out ∧
    (s.modStrainer q f).fuses = s.fuses ∧ (s.modStrainer q f).dev = s.dev ∧ (s.modStrainer q f).time = s.time ∧
    (s.modStrainer q f).faults = s.faults ∧ (s.modStrainer q f).power = s.power ∧ (s.modStrainer q f).host = s.host ∧
    (s.modStrainer q f).ctr = s.ctr ∧ (s.modStrainer q f).lanes = s.lanes ∧ (s.modStrainer q f).ports = s.ports ∧
    (s.modStrainer q f).portGen = s.portGen ∧ (s.modStrainer q f).slices = s.slices ∧
    (s.modStrainer q f).voqs = s.voqs ∧ (s.modStrainer q f).fabric = s.fabric ∧ (s.modStrainer q f).quads = s.quads ∧
    (s.modStrainer q f).tables = s.tables ∧ (s.modStrainer q f).vers = s.vers ∧ (s.modStrainer q f).audit = s.audit ∧
    (s.modStrainer q f).ioam = s.ioam ∧ (s.modStrainer q f).synce = s.synce :=
  ⟨rfl, rfl, rfl, rfl, rfl, rfl, rfl, rfl, rfl, rfl, rfl, rfl, rfl, rfl, rfl, rfl, rfl, rfl, rfl, rfl, rfl, rfl⟩

@[simp] theorem State.modChain_frame (s : State) (c : Nat) (f : Chain → Chain) :
    (s.modChain c f).pending = s.pending ∧ (s.modChain c f).draws = s.draws ∧ (s.modChain c f).out = s.out ∧
    (s.modChain c f).fuses = s.fuses ∧ (s.modChain c f).dev = s.dev ∧ (s.modChain c f).time = s.time ∧
    (s.modChain c f).faults = s.faults ∧ (s.modChain c f).power = s.power ∧ (s.modChain c f).host = s.host ∧
    (s.modChain c f).ctr = s.ctr ∧ (s.modChain c f).strainers = s.strainers ∧ (s.modChain c f).lanes = s.lanes ∧
    (s.modChain c f).ports = s.ports ∧ (s.modChain c f).portGen = s.portGen ∧ (s.modChain c f).slices = s.slices ∧
    (s.modChain c f).voqs = s.voqs ∧ (s.modChain c f).fabric = s.fabric ∧ (s.modChain c f).quads = s.quads ∧
    (s.modChain c f).tables = s.tables ∧ (s.modChain c f).vers = s.vers ∧ (s.modChain c f).ioam = s.ioam ∧
    (s.modChain c f).synce = s.synce :=
  ⟨rfl, rfl, rfl, rfl, rfl, rfl, rfl, rfl, rfl, rfl, rfl, rfl, rfl, rfl, rfl, rfl, rfl, rfl, rfl, rfl, rfl, rfl⟩

@[simp] theorem State.modQueue_frame (s : State) (n : Nat) (f : Queue → Queue) :
    (s.modQueue n f).pending = s.pending ∧ (s.modQueue n f).draws = s.draws ∧ (s.modQueue n f).out = s.out ∧
    (s.modQueue n f).fuses = s.fuses ∧ (s.modQueue n f).dev = s.dev ∧ (s.modQueue n f).time = s.time ∧
    (s.modQueue n f).faults = s.faults ∧ (s.modQueue n f).power = s.power ∧ (s.modQueue n f).ctr = s.ctr ∧
    (s.modQueue n f).strainers = s.strainers ∧ (s.modQueue n f).lanes = s.lanes ∧ (s.modQueue n f).ports = s.ports ∧
    (s.modQueue n f).portGen = s.portGen ∧ (s.modQueue n f).slices = s.slices ∧ (s.modQueue n f).voqs = s.voqs ∧
    (s.modQueue n f).fabric = s.fabric ∧ (s.modQueue n f).quads = s.quads ∧ (s.modQueue n f).tables = s.tables ∧
    (s.modQueue n f).vers = s.vers ∧ (s.modQueue n f).audit = s.audit ∧ (s.modQueue n f).ioam = s.ioam ∧
    (s.modQueue n f).synce = s.synce :=
  ⟨rfl, rfl, rfl, rfl, rfl, rfl, rfl, rfl, rfl, rfl, rfl, rfl, rfl, rfl, rfl, rfl, rfl, rfl, rfl, rfl, rfl, rfl⟩

@[simp] theorem State.modCq_frame (s : State) (n : Nat) (f : CRing → CRing) :
    (s.modCq n f).pending = s.pending ∧ (s.modCq n f).draws = s.draws ∧ (s.modCq n f).out = s.out ∧
    (s.modCq n f).fuses = s.fuses ∧ (s.modCq n f).dev = s.dev ∧ (s.modCq n f).time = s.time ∧
    (s.modCq n f).faults = s.faults ∧ (s.modCq n f).power = s.power ∧ (s.modCq n f).ctr = s.ctr ∧
    (s.modCq n f).strainers = s.strainers ∧ (s.modCq n f).lanes = s.lanes ∧ (s.modCq n f).ports = s.ports ∧
    (s.modCq n f).portGen = s.portGen ∧ (s.modCq n f).slices = s.slices ∧ (s.modCq n f).voqs = s.voqs ∧
    (s.modCq n f).fabric = s.fabric ∧ (s.modCq n f).quads = s.quads ∧ (s.modCq n f).tables = s.tables ∧
    (s.modCq n f).vers = s.vers ∧ (s.modCq n f).audit = s.audit ∧ (s.modCq n f).ioam = s.ioam ∧
    (s.modCq n f).synce = s.synce :=
  ⟨rfl, rfl, rfl, rfl, rfl, rfl, rfl, rfl, rfl, rfl, rfl, rfl, rfl, rfl, rfl, rfl, rfl, rfl, rfl, rfl, rfl, rfl⟩

@[simp] theorem State.latch_frame (s : State) (off : Nat) (v : BitVec 32) :
    (s.latch off v).pending = s.pending ∧ (s.latch off v).draws = s.draws ∧ (s.latch off v).out = s.out ∧
    (s.latch off v).fuses = s.fuses ∧ (s.latch off v).dev = s.dev ∧ (s.latch off v).time = s.time ∧
    (s.latch off v).faults = s.faults ∧ (s.latch off v).power = s.power ∧ (s.latch off v).ctr = s.ctr ∧
    (s.latch off v).strainers = s.strainers ∧ (s.latch off v).lanes = s.lanes ∧ (s.latch off v).ports = s.ports ∧
    (s.latch off v).portGen = s.portGen ∧ (s.latch off v).slices = s.slices ∧ (s.latch off v).voqs = s.voqs ∧
    (s.latch off v).fabric = s.fabric ∧ (s.latch off v).quads = s.quads ∧ (s.latch off v).tables = s.tables ∧
    (s.latch off v).vers = s.vers ∧ (s.latch off v).audit = s.audit ∧ (s.latch off v).ioam = s.ioam ∧
    (s.latch off v).synce = s.synce :=
  ⟨rfl, rfl, rfl, rfl, rfl, rfl, rfl, rfl, rfl, rfl, rfl, rfl, rfl, rfl, rfl, rfl, rfl, rfl, rfl, rfl, rfl, rfl⟩

@[simp] theorem State.latchLow_frame (s : State) (off : Nat) (v : BitVec 64) :
    (s.latchLow off v).pending = s.pending ∧ (s.latchLow off v).draws = s.draws ∧ (s.latchLow off v).out = s.out ∧
    (s.latchLow off v).fuses = s.fuses ∧ (s.latchLow off v).dev = s.dev ∧ (s.latchLow off v).time = s.time ∧
    (s.latchLow off v).faults = s.faults ∧ (s.latchLow off v).power = s.power ∧ (s.latchLow off v).ctr = s.ctr ∧
    (s.latchLow off v).strainers = s.strainers ∧ (s.latchLow off v).lanes = s.lanes ∧
    (s.latchLow off v).ports = s.ports ∧ (s.latchLow off v).portGen = s.portGen ∧
    (s.latchLow off v).slices = s.slices ∧ (s.latchLow off v).voqs = s.voqs ∧ (s.latchLow off v).fabric = s.fabric ∧
    (s.latchLow off v).quads = s.quads ∧ (s.latchLow off v).tables = s.tables ∧ (s.latchLow off v).vers = s.vers ∧
    (s.latchLow off v).audit = s.audit ∧ (s.latchLow off v).ioam = s.ioam ∧ (s.latchLow off v).synce = s.synce :=
  ⟨rfl, rfl, rfl, rfl, rfl, rfl, rfl, rfl, rfl, rfl, rfl, rfl, rfl, rfl, rfl, rfl, rfl, rfl, rfl, rfl, rfl, rfl⟩

@[simp] theorem State.bump_frame (s : State) (page slot n : Nat) :
    (s.bump page slot n).pending = s.pending ∧ (s.bump page slot n).draws = s.draws ∧
    (s.bump page slot n).out = s.out ∧ (s.bump page slot n).fuses = s.fuses ∧ (s.bump page slot n).dev = s.dev ∧
    (s.bump page slot n).time = s.time ∧ (s.bump page slot n).faults = s.faults ∧
    (s.bump page slot n).power = s.power ∧ (s.bump page slot n).host = s.host ∧
    (s.bump page slot n).strainers = s.strainers ∧ (s.bump page slot n).lanes = s.lanes ∧
    (s.bump page slot n).ports = s.ports ∧ (s.bump page slot n).portGen = s.portGen ∧
    (s.bump page slot n).slices = s.slices ∧ (s.bump page slot n).voqs = s.voqs ∧
    (s.bump page slot n).fabric = s.fabric ∧ (s.bump page slot n).quads = s.quads ∧
    (s.bump page slot n).tables = s.tables ∧ (s.bump page slot n).vers = s.vers ∧
    (s.bump page slot n).audit = s.audit ∧ (s.bump page slot n).ioam = s.ioam ∧ (s.bump page slot n).synce = s.synce :=
  ⟨rfl, rfl, rfl, rfl, rfl, rfl, rfl, rfl, rfl, rfl, rfl, rfl, rfl, rfl, rfl, rfl, rfl, rfl, rfl, rfl, rfl, rfl⟩

@[simp] theorem State.countQuad_frame (s : State) (q slot n : Nat) :
    (s.countQuad q slot n).pending = s.pending ∧ (s.countQuad q slot n).draws = s.draws ∧
    (s.countQuad q slot n).out = s.out ∧ (s.countQuad q slot n).fuses = s.fuses ∧ (s.countQuad q slot n).dev = s.dev ∧
    (s.countQuad q slot n).time = s.time ∧ (s.countQuad q slot n).faults = s.faults ∧
    (s.countQuad q slot n).power = s.power ∧ (s.countQuad q slot n).host = s.host ∧
    (s.countQuad q slot n).strainers = s.strainers ∧ (s.countQuad q slot n).lanes = s.lanes ∧
    (s.countQuad q slot n).ports = s.ports ∧ (s.countQuad q slot n).portGen = s.portGen ∧
    (s.countQuad q slot n).slices = s.slices ∧ (s.countQuad q slot n).voqs = s.voqs ∧
    (s.countQuad q slot n).fabric = s.fabric ∧ (s.countQuad q slot n).quads = s.quads ∧
    (s.countQuad q slot n).tables = s.tables ∧ (s.countQuad q slot n).vers = s.vers ∧
    (s.countQuad q slot n).audit = s.audit ∧ (s.countQuad q slot n).ioam = s.ioam ∧
    (s.countQuad q slot n).synce = s.synce :=
  ⟨rfl, rfl, rfl, rfl, rfl, rfl, rfl, rfl, rfl, rfl, rfl, rfl, rfl, rfl, rfl, rfl, rfl, rfl, rfl, rfl, rfl, rfl⟩

@[simp] theorem State.countQueue_frame (s : State) (q slot n : Nat) :
    (s.countQueue q slot n).pending = s.pending ∧ (s.countQueue q slot n).draws = s.draws ∧
    (s.countQueue q slot n).out = s.out ∧ (s.countQueue q slot n).fuses = s.fuses ∧
    (s.countQueue q slot n).dev = s.dev ∧ (s.countQueue q slot n).time = s.time ∧
    (s.countQueue q slot n).faults = s.faults ∧ (s.countQueue q slot n).power = s.power ∧
    (s.countQueue q slot n).host = s.host ∧ (s.countQueue q slot n).strainers = s.strainers ∧
    (s.countQueue q slot n).lanes = s.lanes ∧ (s.countQueue q slot n).ports = s.ports ∧
    (s.countQueue q slot n).portGen = s.portGen ∧ (s.countQueue q slot n).slices = s.slices ∧
    (s.countQueue q slot n).voqs = s.voqs ∧ (s.countQueue q slot n).fabric = s.fabric ∧
    (s.countQueue q slot n).quads = s.quads ∧ (s.countQueue q slot n).tables = s.tables ∧
    (s.countQueue q slot n).vers = s.vers ∧ (s.countQueue q slot n).audit = s.audit ∧
    (s.countQueue q slot n).ioam = s.ioam ∧ (s.countQueue q slot n).synce = s.synce :=
  ⟨rfl, rfl, rfl, rfl, rfl, rfl, rfl, rfl, rfl, rfl, rfl, rfl, rfl, rfl, rfl, rfl, rfl, rfl, rfl, rfl, rfl, rfl⟩

@[simp] theorem State.countVoq_frame (s : State) (v k n : Nat) :
    (s.countVoq v k n).pending = s.pending ∧ (s.countVoq v k n).draws = s.draws ∧ (s.countVoq v k n).out = s.out ∧
    (s.countVoq v k n).fuses = s.fuses ∧ (s.countVoq v k n).dev = s.dev ∧ (s.countVoq v k n).time = s.time ∧
    (s.countVoq v k n).faults = s.faults ∧ (s.countVoq v k n).power = s.power ∧ (s.countVoq v k n).host = s.host ∧
    (s.countVoq v k n).strainers = s.strainers ∧ (s.countVoq v k n).lanes = s.lanes ∧
    (s.countVoq v k n).ports = s.ports ∧ (s.countVoq v k n).portGen = s.portGen ∧
    (s.countVoq v k n).slices = s.slices ∧ (s.countVoq v k n).voqs = s.voqs ∧ (s.countVoq v k n).fabric = s.fabric ∧
    (s.countVoq v k n).quads = s.quads ∧ (s.countVoq v k n).tables = s.tables ∧ (s.countVoq v k n).vers = s.vers ∧
    (s.countVoq v k n).audit = s.audit ∧ (s.countVoq v k n).ioam = s.ioam ∧ (s.countVoq v k n).synce = s.synce :=
  ⟨rfl, rfl, rfl, rfl, rfl, rfl, rfl, rfl, rfl, rfl, rfl, rfl, rfl, rfl, rfl, rfl, rfl, rfl, rfl, rfl, rfl, rfl⟩

@[simp] theorem State.countPolicer_frame (s : State) (i k n : Nat) :
    (s.countPolicer i k n).pending = s.pending ∧ (s.countPolicer i k n).draws = s.draws ∧
    (s.countPolicer i k n).out = s.out ∧ (s.countPolicer i k n).fuses = s.fuses ∧ (s.countPolicer i k n).dev = s.dev ∧
    (s.countPolicer i k n).time = s.time ∧ (s.countPolicer i k n).faults = s.faults ∧
    (s.countPolicer i k n).power = s.power ∧ (s.countPolicer i k n).host = s.host ∧
    (s.countPolicer i k n).strainers = s.strainers ∧ (s.countPolicer i k n).lanes = s.lanes ∧
    (s.countPolicer i k n).ports = s.ports ∧ (s.countPolicer i k n).portGen = s.portGen ∧
    (s.countPolicer i k n).slices = s.slices ∧ (s.countPolicer i k n).voqs = s.voqs ∧
    (s.countPolicer i k n).fabric = s.fabric ∧ (s.countPolicer i k n).quads = s.quads ∧
    (s.countPolicer i k n).tables = s.tables ∧ (s.countPolicer i k n).vers = s.vers ∧
    (s.countPolicer i k n).audit = s.audit ∧ (s.countPolicer i k n).ioam = s.ioam ∧
    (s.countPolicer i k n).synce = s.synce :=
  ⟨rfl, rfl, rfl, rfl, rfl, rfl, rfl, rfl, rfl, rfl, rfl, rfl, rfl, rfl, rfl, rfl, rfl, rfl, rfl, rfl, rfl, rfl⟩

@[simp] theorem State.countSlice_frame (s : State) (sl slot n : Nat) :
    (s.countSlice sl slot n).pending = s.pending ∧ (s.countSlice sl slot n).draws = s.draws ∧
    (s.countSlice sl slot n).out = s.out ∧ (s.countSlice sl slot n).fuses = s.fuses ∧
    (s.countSlice sl slot n).dev = s.dev ∧ (s.countSlice sl slot n).time = s.time ∧
    (s.countSlice sl slot n).faults = s.faults ∧ (s.countSlice sl slot n).power = s.power ∧
    (s.countSlice sl slot n).host = s.host ∧ (s.countSlice sl slot n).strainers = s.strainers ∧
    (s.countSlice sl slot n).lanes = s.lanes ∧ (s.countSlice sl slot n).ports = s.ports ∧
    (s.countSlice sl slot n).portGen = s.portGen ∧ (s.countSlice sl slot n).voqs = s.voqs ∧
    (s.countSlice sl slot n).fabric = s.fabric ∧ (s.countSlice sl slot n).quads = s.quads ∧
    (s.countSlice sl slot n).tables = s.tables ∧ (s.countSlice sl slot n).vers = s.vers ∧
    (s.countSlice sl slot n).audit = s.audit ∧ (s.countSlice sl slot n).ioam = s.ioam ∧
    (s.countSlice sl slot n).synce = s.synce :=
  ⟨rfl, rfl, rfl, rfl, rfl, rfl, rfl, rfl, rfl, rfl, rfl, rfl, rfl, rfl, rfl, rfl, rfl, rfl, rfl, rfl, rfl⟩

@[simp] theorem State.countPort_frame (s : State) (p slot n : Nat) :
    (s.countPort p slot n).pending = s.pending ∧ (s.countPort p slot n).draws = s.draws ∧
    (s.countPort p slot n).out = s.out ∧ (s.countPort p slot n).fuses = s.fuses ∧ (s.countPort p slot n).dev = s.dev ∧
    (s.countPort p slot n).time = s.time ∧ (s.countPort p slot n).faults = s.faults ∧
    (s.countPort p slot n).power = s.power ∧ (s.countPort p slot n).host = s.host ∧
    (s.countPort p slot n).strainers = s.strainers ∧ (s.countPort p slot n).lanes = s.lanes ∧
    (s.countPort p slot n).ports = s.ports ∧ (s.countPort p slot n).portGen = s.portGen ∧
    (s.countPort p slot n).voqs = s.voqs ∧ (s.countPort p slot n).fabric = s.fabric ∧
    (s.countPort p slot n).quads = s.quads ∧ (s.countPort p slot n).tables = s.tables ∧
    (s.countPort p slot n).vers = s.vers ∧ (s.countPort p slot n).audit = s.audit ∧
    (s.countPort p slot n).ioam = s.ioam ∧ (s.countPort p slot n).synce = s.synce :=
  ⟨rfl, rfl, rfl, rfl, rfl, rfl, rfl, rfl, rfl, rfl, rfl, rfl, rfl, rfl, rfl, rfl, rfl, rfl, rfl, rfl, rfl⟩

@[simp] theorem State.clearSlots_frame (s : State) (page lo hi : Nat) :
    (s.clearSlots page lo hi).pending = s.pending ∧ (s.clearSlots page lo hi).draws = s.draws ∧
    (s.clearSlots page lo hi).out = s.out ∧ (s.clearSlots page lo hi).fuses = s.fuses ∧
    (s.clearSlots page lo hi).dev = s.dev ∧ (s.clearSlots page lo hi).time = s.time ∧
    (s.clearSlots page lo hi).faults = s.faults ∧ (s.clearSlots page lo hi).power = s.power ∧
    (s.clearSlots page lo hi).host = s.host ∧ (s.clearSlots page lo hi).strainers = s.strainers ∧
    (s.clearSlots page lo hi).lanes = s.lanes ∧ (s.clearSlots page lo hi).ports = s.ports ∧
    (s.clearSlots page lo hi).portGen = s.portGen ∧ (s.clearSlots page lo hi).slices = s.slices ∧
    (s.clearSlots page lo hi).voqs = s.voqs ∧ (s.clearSlots page lo hi).fabric = s.fabric ∧
    (s.clearSlots page lo hi).quads = s.quads ∧ (s.clearSlots page lo hi).tables = s.tables ∧
    (s.clearSlots page lo hi).vers = s.vers ∧ (s.clearSlots page lo hi).audit = s.audit ∧
    (s.clearSlots page lo hi).ioam = s.ioam ∧ (s.clearSlots page lo hi).synce = s.synce :=
  ⟨rfl, rfl, rfl, rfl, rfl, rfl, rfl, rfl, rfl, rfl, rfl, rfl, rfl, rfl, rfl, rfl, rfl, rfl, rfl, rfl, rfl, rfl⟩

@[simp] theorem State.clearPage_frame (s : State) (page : Nat) :
    (s.clearPage page).pending = s.pending ∧ (s.clearPage page).draws = s.draws ∧ (s.clearPage page).out = s.out ∧
    (s.clearPage page).fuses = s.fuses ∧ (s.clearPage page).dev = s.dev ∧ (s.clearPage page).time = s.time ∧
    (s.clearPage page).faults = s.faults ∧ (s.clearPage page).power = s.power ∧
    (s.clearPage page).strainers = s.strainers ∧ (s.clearPage page).lanes = s.lanes ∧
    (s.clearPage page).ports = s.ports ∧ (s.clearPage page).portGen = s.portGen ∧
    (s.clearPage page).slices = s.slices ∧ (s.clearPage page).voqs = s.voqs ∧ (s.clearPage page).fabric = s.fabric ∧
    (s.clearPage page).quads = s.quads ∧ (s.clearPage page).tables = s.tables ∧ (s.clearPage page).vers = s.vers ∧
    (s.clearPage page).audit = s.audit ∧ (s.clearPage page).ioam = s.ioam ∧ (s.clearPage page).synce = s.synce :=
  ⟨rfl, rfl, rfl, rfl, rfl, rfl, rfl, rfl, rfl, rfl, rfl, rfl, rfl, rfl, rfl, rfl, rfl, rfl, rfl, rfl, rfl⟩

@[simp] theorem State.raise_frame (s : State) (source kind cls gen addr : Nat) :
    (s.raise source kind cls gen addr).pending = s.pending ∧ (s.raise source kind cls gen addr).draws = s.draws ∧
    (s.raise source kind cls gen addr).out = s.out ∧ (s.raise source kind cls gen addr).fuses = s.fuses ∧
    (s.raise source kind cls gen addr).dev = s.dev ∧ (s.raise source kind cls gen addr).time = s.time ∧
    (s.raise source kind cls gen addr).power = s.power ∧ (s.raise source kind cls gen addr).host = s.host ∧
    (s.raise source kind cls gen addr).ctr = s.ctr ∧ (s.raise source kind cls gen addr).strainers = s.strainers ∧
    (s.raise source kind cls gen addr).lanes = s.lanes ∧ (s.raise source kind cls gen addr).ports = s.ports ∧
    (s.raise source kind cls gen addr).portGen = s.portGen ∧ (s.raise source kind cls gen addr).slices = s.slices ∧
    (s.raise source kind cls gen addr).voqs = s.voqs ∧ (s.raise source kind cls gen addr).fabric = s.fabric ∧
    (s.raise source kind cls gen addr).quads = s.quads ∧ (s.raise source kind cls gen addr).tables = s.tables ∧
    (s.raise source kind cls gen addr).vers = s.vers ∧ (s.raise source kind cls gen addr).audit = s.audit ∧
    (s.raise source kind cls gen addr).ioam = s.ioam ∧ (s.raise source kind cls gen addr).synce = s.synce :=
  ⟨rfl, rfl, rfl, rfl, rfl, rfl, rfl, rfl, rfl, rfl, rfl, rfl, rfl, rfl, rfl, rfl, rfl, rfl, rfl, rfl, rfl, rfl⟩

@[simp] theorem State.setMode_frame (s : State) (m : Mode) :
    (s.setMode m).pending = s.pending ∧ (s.setMode m).draws = s.draws ∧ (s.setMode m).out = s.out ∧
    (s.setMode m).fuses = s.fuses ∧ (s.setMode m).time = s.time ∧ (s.setMode m).faults = s.faults ∧
    (s.setMode m).power = s.power ∧ (s.setMode m).host = s.host ∧ (s.setMode m).ctr = s.ctr ∧
    (s.setMode m).strainers = s.strainers ∧ (s.setMode m).lanes = s.lanes ∧ (s.setMode m).ports = s.ports ∧
    (s.setMode m).portGen = s.portGen ∧ (s.setMode m).slices = s.slices ∧ (s.setMode m).voqs = s.voqs ∧
    (s.setMode m).fabric = s.fabric ∧ (s.setMode m).quads = s.quads ∧ (s.setMode m).tables = s.tables ∧
    (s.setMode m).vers = s.vers ∧ (s.setMode m).audit = s.audit ∧ (s.setMode m).ioam = s.ioam ∧
    (s.setMode m).synce = s.synce :=
  ⟨rfl, rfl, rfl, rfl, rfl, rfl, rfl, rfl, rfl, rfl, rfl, rfl, rfl, rfl, rfl, rfl, rfl, rfl, rfl, rfl, rfl, rfl⟩

@[simp] theorem State.startWake_frame (s : State) (d : Nat) (v : Vote) (t : Nat) :
    (s.startWake d v t).pending = s.pending ∧ (s.startWake d v t).draws = s.draws ∧ (s.startWake d v t).out = s.out ∧
    (s.startWake d v t).fuses = s.fuses ∧ (s.startWake d v t).dev = s.dev ∧ (s.startWake d v t).time = s.time ∧
    (s.startWake d v t).faults = s.faults ∧ (s.startWake d v t).host = s.host ∧ (s.startWake d v t).ctr = s.ctr ∧
    (s.startWake d v t).strainers = s.strainers ∧ (s.startWake d v t).lanes = s.lanes ∧
    (s.startWake d v t).ports = s.ports ∧ (s.startWake d v t).portGen = s.portGen ∧
    (s.startWake d v t).slices = s.slices ∧ (s.startWake d v t).voqs = s.voqs ∧ (s.startWake d v t).fabric = s.fabric ∧
    (s.startWake d v t).quads = s.quads ∧ (s.startWake d v t).tables = s.tables ∧ (s.startWake d v t).vers = s.vers ∧
    (s.startWake d v t).audit = s.audit ∧ (s.startWake d v t).ioam = s.ioam ∧ (s.startWake d v t).synce = s.synce :=
  ⟨rfl, rfl, rfl, rfl, rfl, rfl, rfl, rfl, rfl, rfl, rfl, rfl, rfl, rfl, rfl, rfl, rfl, rfl, rfl, rfl, rfl, rfl⟩

@[simp] theorem State.emit_out (s : State) (o : Out) : (s.emit o).out = s.out ++ [o] := rfl
@[simp] theorem State.drawn_draws (s : State) : s.drawn.draws = s.draws + 1 := rfl
@[simp] theorem State.setPort_ports (s : State) (p : Nat) (v : Port) : (s.setPort p v).ports = Map.ins s.ports p v := rfl
@[simp] theorem State.modPort_ports (s : State) (p : Nat) (f : Port → Port) :
    (s.modPort p f).ports = Map.adjust s.ports p f := rfl
@[simp] theorem State.raise_faults (s : State) (source kind cls gen addr : Nat) :
    (s.raise source kind cls gen addr).faults =
      { s.faults with transit := s.faults.transit ++ [faultMsg s.tbNs source kind cls gen addr] } := rfl
@[simp] theorem State.setMode_mode (s : State) (m : Mode) : (s.setMode m).dev.mode = m := rfl
@[simp] theorem State.slice_modSlice (s : State) (n : Nat) (f : Slice → Slice) : (s.modSlice n f).slice n = f (s.slice n) := by
  simp [State.slice, State.modSlice]
theorem State.slice_modSlice_ne (s : State) {m n : Nat} (f : Slice → Slice) (h : m ≠ n) : (s.modSlice n f).slice m = s.slice m :=
  Map.val_ins_ne _ _ _ h
@[simp] theorem State.quad_modQuad (s : State) (q : Nat) (f : Quad → Quad) : (s.modQuad q f).quad q = f (s.quad q) := by
  simp [State.quad, State.modQuad]
theorem State.quad_modQuad_ne (s : State) {p q : Nat} (f : Quad → Quad) (h : p ≠ q) : (s.modQuad q f).quad p = s.quad p :=
  Map.val_ins_ne _ _ _ h
@[simp] theorem State.lane_modLane (s : State) (l : Nat) (f : Lane → Lane) : (s.modLane l f).lane l = f (s.lane l) := by
  simp [State.lane, State.modLane]
theorem State.lane_modLane_ne (s : State) {k l : Nat} (f : Lane → Lane) (h : k ≠ l) : (s.modLane l f).lane k = s.lane k :=
  Map.val_ins_ne _ _ _ h
@[simp] theorem State.dom_modDom (s : State) (d : Nat) (f : Dom → Dom) : (s.modDom d f).dom d = f (s.dom d) := by
  simp [State.dom, State.modDom]
theorem State.dom_modDom_ne (s : State) {c d : Nat} (f : Dom → Dom) (h : c ≠ d) : (s.modDom d f).dom c = s.dom c :=
  Map.val_ins_ne _ _ _ h
@[simp] theorem State.strainer_modStrainer (s : State) (q : Nat) (f : Strainer → Strainer) :
    (s.modStrainer q f).strainer q = f (s.strainer q) := by
  simp [State.strainer, State.modStrainer]
@[simp] theorem State.chain_modChain (s : State) (c : Nat) (f : Chain → Chain) : (s.modChain c f).chain c = f (s.chain c) := by
  simp [State.chain, State.modChain]
theorem State.chain_modChain_ne (s : State) {b c : Nat} (f : Chain → Chain) (h : b ≠ c) : (s.modChain c f).chain b = s.chain b :=
  Map.val_ins_ne _ _ _ h
@[simp] theorem State.port_setPort (s : State) (p : Nat) (v : Port) : (s.setPort p v).port p = some v := by
  simp [State.port, State.setPort]
theorem State.port_setPort_ne (s : State) {p q : Nat} (v : Port) (h : q ≠ p) : (s.setPort p v).port q = s.port q :=
  Map.find_ins_ne _ _ h
theorem State.port_modPort (s : State) (p q : Nat) (f : Port → Port) :
    (s.modPort p f).port q = if p = q then (s.port p).map f else s.port q := Map.find_adjust _ _ _ _
theorem State.queue_modQueue (s : State) (n m : Nat) (f : Queue → Queue) :
    (s.modQueue n f).queue m = if n = m then (s.queue n).map f else s.queue m := Map.find_adjust _ _ _ _
theorem State.cq_modCq (s : State) (n m : Nat) (f : CRing → CRing) :
    (s.modCq n f).cq m = if n = m then (s.cq n).map f else s.cq m := Map.find_adjust _ _ _ _

end Sys2Proof.Machine
end

