-- ==== Sys2Proof/Laws/Commands.lean ====
section
/-! SUPPORT. What a row of the command set does when its command acts: one equation, which a proof cites instead of unfolding
`runCommand`. -/

namespace Sys2Proof.Machine

/-- A command that touches no domain takes no vote. -/
@[simp] theorem Exec.fresh_nil (s : State) (e : Exec) : e.fresh s [] = [] := rfl
@[simp] theorem Exec.voting_nil (s : State) (e : Exec) : e.voting s [] = e := by
  cases e; simp [Exec.voting]
@[simp] theorem State.readied_nil (s : State) (qn : Nat) (e : Exec) : s.readied qn [] e = s := rfl
@[simp] theorem State.allOn_nil (s : State) : s.allOn [] = true := rfl

/-- The checks of R316 that pass leave the command's own. -/
theorem firstStatus_of_ready {s : State} {row : CmdRow} {e : Exec} {b : Body}
    (h : (firstStatus s row e { act := .wait }).isNone = true) (hb : b.bad s = false) (ha : b.absent s = false) :
    firstStatus s row e b = none := by
  unfold firstStatus at *
  simp only [hb, ha, Bool.or_false, Bool.false_eq_true, if_false] at *
  (repeat' split at h) <;> simp_all

/-- What `State.ready` says, taken apart. -/
theorem State.ready_iff {s : State} {row : CmdRow} {sub : Sub} {param : BitVec 384} {e : Exec}
    (h : s.ready row sub param e = true) :
    (s.mode ≠ .reset ∧ s.mode ≠ .lockout) ∧ s.findExec sub.queue.toNat sub.index = some e ∧ e.opcode.toNat = row.opcode ∧
      e.param = param ∧ e.begun = false ∧ (firstStatus s row e { act := .wait }).isNone = true := by
  simp only [State.ready, Bool.and_eq_true, bne_iff_ne, ne_eq, beq_iff_eq, Bool.not_eq_true'] at h
  obtain ⟨⟨⟨⟨⟨⟨h1, h2⟩, h3⟩, h4⟩, h5⟩, h6⟩, h7⟩ := h
  exact ⟨⟨h1, h2⟩, h3, h4, h5, h6, h7⟩

/-- A command that acts: its own rule runs in the state with its votes. -/
theorem runCommand_acting {s : State} {row : CmdRow} {sub : Sub} {param : BitVec 384} {ds : List Nat} {e : Exec} {u : State}
    {f : Exec} (h : Acting s row sub param ds e u f) (b : Body) (hd : b.doms s = ds) (hb : b.bad s = false)
    (ha : b.absent s = false) : runCommand row sub param b s = (b.act u).settled sub.queue.toNat row f := by
  obtain ⟨h1, h2, h3, h4, h5, h6⟩ := State.ready_iff h.ready
  have hf := firstStatus_of_ready h6 hb ha
  subst hd
  have hu := h.state
  have hv := h.votes
  have ho := h.on
  subst hu hv
  unfold runCommand
  rw [if_neg (by simp [h1.1, h1.2])]
  simp only [h2, h3, h4, and_self, if_true]
  unfold State.actOn
  simp only [h5, hf, Bool.false_eq_true, if_false, ho, if_true]

/-- The same for a command that touches no domain. -/
theorem runCommand_ready {s : State} {row : CmdRow} {sub : Sub} {param : BitVec 384} {e : Exec}
    (h : s.ready row sub param e = true) (b : Body) (hd : b.doms s = []) (hb : b.bad s = false) (ha : b.absent s = false) :
    runCommand row sub param b s = (b.act s).settled sub.queue.toNat row e :=
  runCommand_acting (ds := []) (u := s) (f := e) ⟨h, by simp, by simp, by simp⟩ b hd hb ha

@[simp] theorem Res.settled_ok (r : BitVec 384) (t : State) (sub : Sub) (row : CmdRow) (e : Exec) :
    (Res.ok r t).settled sub.queue.toNat row e = t.done row sub e r := rfl
@[simp] theorem Res.settled_fail (st : Status) (t : State) (sub : Sub) (row : CmdRow) (e : Exec) :
    (Res.fail st t).settled sub.queue.toNat row e = t.refused sub e st := rfl
@[simp] theorem Res.settled_wait (t : State) (sub : Sub) (row : CmdRow) (e : Exec) :
    (Res.wait t).settled sub.queue.toNat row e = t.begun sub e := rfl

end Sys2Proof.Machine
end

