-- ==== Sys2Proof/Laws/Keeps.lean ====
section
/-! SUPPORT. What an operation leaves alone: the command queue, the mode and the soundness of the state. -/

set_option linter.unusedSimpArgs false

namespace Sys2Proof.Machine

/-- `t` has the command queue and the mode of `a`, and is sound if `a` is: what all but a few operations do. -/
def Keeps (a t : State) : Prop := t.pending = a.pending ∧ t.dev.mode = a.dev.mode ∧ (Sound a → Sound t)

@[simp] theorem Keeps.refl (a : State) : Keeps a a := ⟨rfl, rfl, id⟩

theorem Keeps.mode {a t : State} (h : Keeps a t) : t.dev.mode = a.dev.mode := h.2.1

theorem Keeps.trans {a b c : State} (h : Keeps a b) (k : Keeps b c) : Keeps a c :=
  ⟨k.1.trans h.1, k.2.1.trans h.2.1, fun x => k.2.2 (h.2.2 x)⟩

theorem Keeps.of {a t u : State} (h : Keeps a t) (hp : u.pending = t.pending) (hm : u.dev.mode = t.dev.mode) (hc :
    u.ctr = t.ctr)
    (hg : u.portGen = t.portGen) (hf : u.fuses = t.fuses) (hi : u.ioam = t.ioam) (hs : u.synce = t.synce) : Keeps a u :=
  ⟨hp.trans h.1, hm.trans h.2.1, fun x =>
    let y := h.2.2 x
    ⟨hc ▸ y.counters, hg ▸ y.gens, hf ▸ y.svn, hi ▸ y.ioam, hs ▸ y.synce⟩⟩

@[simp] theorem Keeps.mk_dev {a t : State} (h : Keeps a t) (draws out time faults power host strainers lanes ports
    slices voqs
    fabric quads tables vers audit) :
    Keeps a (State.mk t.pending draws out t.fuses t.dev time faults power host t.ctr strainers lanes ports t.portGen
    slices voqs
      fabric quads tables vers audit t.ioam t.synce) := h.of rfl rfl rfl rfl rfl rfl rfl

@[simp] theorem Keeps.ite {a t u : State} {c : Prop} [Decidable c] (h : Keeps a t) (k : Keeps a u) :
    Keeps a (if c then t else u) := by split <;> assumption


@[simp] theorem Keeps.mk_devs {a t : State} (h : Keeps a t) (draws out time faults power host strainers lanes ports
    slices voqs
    fabric quads tables vers audit x1 x2 x3 x4 x5 x6 x7 x8 x9 x10 x11 x12 x13 x14 x15 x16 x17 x18 x19 x20 x21 x22 x23
    x24 x25 x26 x27 x28 x29 x30 x31 x32 x33) :
    Keeps a (State.mk t.pending draws out t.fuses (DevState.mk t.dev.mode x1 x2 x3 x4 x5 x6 x7 x8 x9 x10 x11 x12 x13
    x14 x15 x16 x17 x18 x19 x20 x21 x22 x23 x24 x25 x26 x27 x28 x29 x30 x31 x32 x33) time faults power host t.ctr strainers
    lanes ports t.portGen slices voqs
      fabric quads tables vers audit t.ioam t.synce) := h.of rfl rfl rfl rfl rfl rfl rfl

/-- The same of a state that the end of a command's rule carries. -/
def KeepsR (a : State) : Res → Prop
  | .ok _ t => Keeps a t
  | .fail _ t => Keeps a t
  | .wait t => Keeps a t
@[simp] theorem keepsR_ok (a t : State) (r) : KeepsR a (.ok r t) = Keeps a t := rfl
@[simp] theorem keepsR_fail (a t : State) (r) : KeepsR a (.fail r t) = Keeps a t := rfl
@[simp] theorem keepsR_wait (a t : State) : KeepsR a (.wait t) = Keeps a t := rfl
@[simp] theorem KeepsR.ite {a : State} {t u : Res} {c : Prop} [Decidable c] (h : KeepsR a t) (k : KeepsR a u) :
    KeepsR a (if c then t else u) := by split <;> assumption
@[simp] theorem Keeps.ite1 {α : Type} {a : State} {t u : State × α} {c : Prop} [Decidable c] (h : Keeps a t.1) (k :
    Keeps a u.1) :
    Keeps a (if c then t else u).1 := by split <;> assumption
theorem Keeps.list {α : Type} {a : State} (l : List α) (f : State → α → State) (hf : ∀ x, Keeps a x → ∀ d, Keeps a (f x d)) :
    ∀ {s : State}, Keeps a s → Keeps a (l.foldl f s) := by
  induction l with
  | nil => intro s h; exact h
  | cons d l ih => intro s h; exact ih (hf s h d)
@[simp] theorem Keeps.list' {α : Type} {a s : State} (l : List α) (f : State → α → State) (h : Keeps a s)
    (hf : ∀ x, Keeps a x → ∀ d, Keeps a (f x d)) : Keeps a (l.foldl f s) := Keeps.list l f hf h
@[simp] theorem Keeps.nats {a s : State} (l : List Nat) (f : State → Nat → State) (h : Keeps a s)
    (hf : ∀ x, Keeps a x → ∀ d, Keeps a (f x d)) : Keeps a (foldNats l f s) := Keeps.list l f hf h
end Sys2Proof.Machine
end

