-- ==== Sys2Proof/Laws/KeepsHost.lean ====
section
/-! SUPPORT. What leaves the command queue, the mode and the soundness of the state alone: the shared operations, the host interface, the fault collector and the power controller. -/

set_option linter.unusedSimpArgs false

namespace Sys2Proof.Machine

@[simp] theorem State.mark_keeps {a0 : State} (s : State) (step : Bool) (hK : Keeps a0 s) : Keeps a0 (State.mark s
    step) := by
  unfold State.mark; simp +contextual (maxDischargeDepth := 30) [hK]
@[simp] theorem State.skipWindows_keeps {a0 : State} (s : State) (hK : Keeps a0 s) : Keeps a0 (State.skipWindows s)
    := by
  unfold State.skipWindows; simp +contextual (maxDischargeDepth := 30) [hK]
@[simp] theorem State.emit_keeps {a0 : State} (s : State) (o : Out) (hK : Keeps a0 s) : Keeps a0 (State.emit s o) := by
  unfold State.emit; simp [hK]
@[simp] theorem State.drawn_keeps {a0 : State} (s : State) (hK : Keeps a0 s) : Keeps a0 (State.drawn s) := by
  unfold State.drawn; simp [hK]
@[simp] theorem State.setPort_keeps {a0 : State} (s : State) (p : Nat) (v : Port) (hK : Keeps a0 s) : Keeps a0
    (State.setPort s p v) := by
  unfold State.setPort; simp [hK]
@[simp] theorem State.modPort_keeps {a0 : State} (s : State) (p : Nat) (f : Port → Port) (hK : Keeps a0 s) : Keeps a0
    (State.modPort s p f) := by
  unfold State.modPort; simp [hK]
@[simp] theorem State.modSlice_keeps {a0 : State} (s : State) (n : Nat) (f : Slice → Slice) (hK : Keeps a0 s) : Keeps
    a0 (State.modSlice s n f) := by
  unfold State.modSlice; simp [hK]
@[simp] theorem State.modQuad_keeps {a0 : State} (s : State) (q : Nat) (f : Quad → Quad) (hK : Keeps a0 s) : Keeps a0
    (State.modQuad s q f) := by
  unfold State.modQuad; simp [hK]
@[simp] theorem State.modLane_keeps {a0 : State} (s : State) (l : Nat) (f : Lane → Lane) (hK : Keeps a0 s) : Keeps a0
    (State.modLane s l f) := by
  unfold State.modLane; simp [hK]
@[simp] theorem State.modVoq_keeps {a0 : State} (s : State) (v : Nat) (f : Voq → Voq) (hK : Keeps a0 s) : Keeps a0
    (State.modVoq s v f) := by
  unfold State.modVoq; simp [hK]
@[simp] theorem State.modDom_keeps {a0 : State} (s : State) (d : Nat) (f : Dom → Dom) (hK : Keeps a0 s) : Keeps a0
    (State.modDom s d f) := by
  unfold State.modDom; simp [hK]
@[simp] theorem State.modStrainer_keeps {a0 : State} (s : State) (q : Nat) (f : Strainer → Strainer) (hK : Keeps a0
    s) : Keeps a0 (State.modStrainer s q f) := by
  unfold State.modStrainer; simp [hK]
@[simp] theorem State.modChain_keeps {a0 : State} (s : State) (c : Nat) (f : Chain → Chain) (hK : Keeps a0 s) : Keeps
    a0 (State.modChain s c f) := by
  unfold State.modChain; simp [hK]
@[simp] theorem State.modQueue_keeps {a0 : State} (s : State) (n : Nat) (f : Queue → Queue) (hK : Keeps a0 s) : Keeps
    a0 (State.modQueue s n f) := by
  unfold State.modQueue; simp [hK]
@[simp] theorem State.modCq_keeps {a0 : State} (s : State) (n : Nat) (f : CRing → CRing) (hK : Keeps a0 s) : Keeps a0
    (State.modCq s n f) := by
  unfold State.modCq; simp [hK]
@[simp] theorem State.latch_keeps {a0 : State} (s : State) (off : Nat) (v : BitVec 32) (hK : Keeps a0 s) : Keeps a0
    (State.latch s off v) := by
  unfold State.latch; simp [hK]
@[simp] theorem State.latchLow_keeps {a0 : State} (s : State) (off : Nat) (v : BitVec 64) (hK : Keeps a0 s) : Keeps
    a0 (State.latchLow s off v) := by
  unfold State.latchLow; simp [hK]
@[simp] theorem State.bump_keeps {a : State} (s : State) (page slot n : Nat) (hK : Keeps a s) : Keeps a (s.bump page slot n) :=
  ⟨hK.1, hK.2.1, fun x =>
    let y := hK.2.2 x
    ⟨Map.wf_upd (V := BitVec 64) 0 (512 * page + slot) (fun v => v + BitVec.ofNat 64 n) y.counters, y.gens, y.svn, y.ioam, y.synce⟩⟩
@[simp] theorem State.countSlice_keeps {a0 : State} (s : State) (sl slot n : Nat) (hK : Keeps a0 s) : Keeps a0
    (State.countSlice s sl slot n) := by
  unfold State.countSlice; simp [hK]
@[simp] theorem State.countPort_keeps {a0 : State} (s : State) (p slot n : Nat) (hK : Keeps a0 s) : Keeps a0
    (State.countPort s p slot n) := by
  unfold State.countPort; simp [hK]
@[simp] theorem State.countQuad_keeps {a0 : State} (s : State) (q slot n : Nat) (hK : Keeps a0 s) : Keeps a0
    (State.countQuad s q slot n) := by
  unfold State.countQuad; simp [hK]
@[simp] theorem State.countQueue_keeps {a0 : State} (s : State) (queue slot n : Nat) (hK : Keeps a0 s) : Keeps a0
    (State.countQueue s queue slot n) := by
  unfold State.countQueue; simp [hK]
@[simp] theorem State.countVoq_keeps {a0 : State} (s : State) (v k n : Nat) (hK : Keeps a0 s) : Keeps a0
    (State.countVoq s v k n) := by
  unfold State.countVoq; simp [hK]
@[simp] theorem State.countPolicer_keeps {a0 : State} (s : State) (i k n : Nat) (hK : Keeps a0 s) : Keeps a0
    (State.countPolicer s i k n) := by
  unfold State.countPolicer; simp [hK]
@[simp] theorem State.clearSlots_keeps {a : State} (s : State) (page lo hi : Nat) (hK : Keeps a s) :
    Keeps a (s.clearSlots page lo hi) :=
  ⟨hK.1, hK.2.1, fun x =>
    let y := hK.2.2 x
    ⟨Map.wf_filter (V := BitVec 64) 0 (fun e => e.1 / 512 ≠ page || e.1 % 512 < lo || hi < e.1 % 512) y.counters, y.gens, y.svn,
      y.ioam, y.synce⟩⟩
@[simp] theorem State.clearPage_keeps {a : State} (s : State) (page : Nat) (hK : Keeps a s) : Keeps a (s.clearPage page) :=
  (State.clearSlots_keeps s page 0 511 hK).of rfl rfl rfl rfl rfl rfl rfl
@[simp] theorem State.dropPages_keeps {a0 : State} (s : State) (gone : Nat → Bool) (hK : Keeps a0 s) : Keeps a0
    (State.dropPages s gone) := by
  unfold State.dropPages; simp +contextual (maxDischargeDepth := 30) [hK]
@[simp] theorem State.raise_keeps {a0 : State} (s : State) (source kind cls gen addr : Nat) (hK : Keeps a0 s) : Keeps
    a0 (State.raise s source kind cls gen addr) := by
  unfold State.raise; simp [hK]
@[simp] theorem State.msix_keeps {a0 : State} (s : State) (v : BitVec 8) (hK : Keeps a0 s) : Keeps a0 (State.msix s v) := by
  unfold State.msix; simp +contextual (maxDischargeDepth := 30) [hK]
@[simp] theorem State.writeEvent_keeps {a0 : State} (s : State) (q : Nat) (r : EvRing) (e : Event) (hK : Keeps a0 s)
    : Keeps a0 (State.writeEvent s q r e) := by
  unfold State.writeEvent; simp +contextual (maxDischargeDepth := 30) [hK]
@[simp] theorem State.postDropped_keeps {a0 : State} (s : State) (q kind : Nat) (src : Handle) (payload : Nat →
    BitVec 320) (hK : Keeps a0 s) : Keeps a0 (State.postDropped s q kind src payload) := by
  unfold State.postDropped; (repeat' split) <;> simp_all +contextual (maxDischargeDepth := 30)
@[simp] theorem State.postHeld_keeps {a0 : State} (s : State) (q kind : Nat) (src : Handle) (payload : BitVec 320)
    (hK : Keeps a0 s) : Keeps a0 (State.postHeld s q kind src payload) := by
  unfold State.postHeld; dsimp only; (repeat' split) <;> simp_all +contextual (maxDischargeDepth := 30)
@[simp] theorem State.startWake_keeps {a0 : State} (s : State) (d : Nat) (v : Vote) (at_ : Nat) (hK : Keeps a0 s) :
    Keeps a0 (State.startWake s d v at_) := by
  unfold State.startWake; simp [hK]
@[simp] theorem State.takeVote1_keeps {a0 : State} (s : State) (d : Nat) (v : Vote) (hK : Keeps a0 s) : Keeps a0
    (State.takeVote1 s d v) := by
  unfold State.takeVote1; (repeat' split) <;> simp_all +contextual (maxDischargeDepth := 30)
@[simp] theorem State.takeVote_keeps {a0 : State} (s : State) (d : Nat) (v : Vote) (hK : Keeps a0 s) : Keeps a0
    (State.takeVote s d v) := by
  unfold State.takeVote; simp +contextual (maxDischargeDepth := 30) [hK]
@[simp] theorem State.settle_keeps {a0 : State} (s : State) (d : Nat) (hK : Keeps a0 s) : Keeps a0 (State.settle s d) := by
  unfold State.settle; simp [hK]
@[simp] theorem State.dropVote_keeps {a0 : State} (s : State) (d : Nat) (v : Vote) (hK : Keeps a0 s) : Keeps a0
    (State.dropVote s d v) := by
  unfold State.dropVote; simp +contextual (maxDischargeDepth := 30) [hK]

@[simp] theorem State.postStall_keeps {a0 : State} (s : State) (cqn tb : Nat) (hK : Keeps a0 s) : Keeps a0
    (State.postStall s cqn tb) := by
  unfold State.postStall; (repeat' split) <;> simp_all +contextual (maxDischargeDepth := 30)
@[simp] theorem State.postResume_keeps {a0 : State} (s : State) (cqn dur : Nat) (hK : Keeps a0 s) : Keeps a0
    (State.postResume s cqn dur) := by
  unfold State.postResume; (repeat' split) <;> simp_all +contextual (maxDischargeDepth := 30)
@[simp] theorem State.stallRing_keeps {a0 : State} (s : State) (cqn : Nat) (hK : Keeps a0 s) : Keeps a0
    (State.stallRing s cqn) := by
  unfold State.stallRing; (repeat' split) <;> simp_all +contextual (maxDischargeDepth := 30)
@[simp] theorem State.complete_keeps {a0 : State} (s : State) (qn : Nat) (index : BitVec 16) (tag : BitVec 32) (st :
    Status) (rlen : Nat) (result : BitVec 384) (hK : Keeps a0 s) : Keeps a0 (State.complete s qn index tag st rlen
    result) := by
  unfold State.complete; (repeat' split) <;> simp_all +contextual (maxDischargeDepth := 30)
@[simp] theorem State.endExec_keeps {a0 : State} (s : State) (qn : Nat) (e : Exec) (hK : Keeps a0 s) : Keeps a0
    (State.endExec s qn e) := by
  unfold State.endExec; simp +contextual (maxDischargeDepth := 30) [hK]
@[simp] theorem State.finish_keeps {a0 : State} (s : State) (qn : Nat) (e : Exec) (st : Status) (rlen : Nat) (result
    : BitVec 384) (hK : Keeps a0 s) : Keeps a0 (State.finish s qn e st rlen result) := by
  unfold State.finish; simp [hK]
@[simp] theorem State.finishAt_keeps {a0 : State} (s : State) (qn : Nat) (index : BitVec 16) (st : Status) (rlen :
    Nat) (result : BitVec 384) (hK : Keeps a0 s) : Keeps a0 (State.finishAt s qn index st rlen result) := by
  unfold State.finishAt; (repeat' split) <;> simp_all +contextual (maxDischargeDepth := 30)
@[simp] theorem State.start_keeps {a : State} (s : State) (qn : Nat) (q : Queue) (row : CmdRow) (index : BitVec 16) (tag : BitVec 32)
    (param : BitVec 384) (hK : Keeps a s) : Keeps a (s.start qn q row index tag param) := by
  unfold State.start; simp +contextual (maxDischargeDepth := 30) [hK]
@[simp] theorem State.adminSettle_keeps {a0 : State} (s : State) (hK : Keeps a0 s) : Keeps a0 (State.adminSettle s) := by
  unfold State.adminSettle; simp [hK]
@[simp] theorem State.haltQueue_keeps {a0 : State} (s : State) (qn : Nat) (hK : Keeps a0 s) : Keeps a0
    (State.haltQueue s qn) := by
  unfold State.haltQueue; simp +contextual (maxDischargeDepth := 30) [hK]
@[simp] theorem State.malformed_keeps {a0 : State} (s : State) (qn : Nat) (index : BitVec 16) (hK : Keeps a0 s) :
    Keeps a0 (State.malformed s qn index) := by
  unfold State.malformed; simp [hK]
@[simp] theorem State.startRow_keeps {a0 : State} (s : State) (sub : Sub) (row : CmdRow) (param : BitVec 384) (hK :
    Keeps a0 s) : Keeps a0 (State.startRow s sub row param) := by
  unfold State.startRow; (repeat' split) <;> simp_all +contextual (maxDischargeDepth := 30)
@[simp] theorem State.readied_keeps {a0 : State} (s : State) (qn : Nat) (ds : List Nat) (e : Exec) (hK : Keeps a0 s)
    : Keeps a0 (State.readied s qn ds e) := by
  unfold State.readied; simp +contextual (maxDischargeDepth := 30) [hK]
@[simp] theorem State.disown_keeps {a0 : State} (s : State) (queue : QueueNo) (index : BitVec 16) (hK : Keeps a0 s) :
    Keeps a0 (State.disown s queue index) := by
  unfold State.disown; simp [hK]
@[simp] theorem State.setOrphan_keeps {a0 : State} (s : State) (o o' : Orphan) (hK : Keeps a0 s) : Keeps a0
    (State.setOrphan s o o') := by
  unfold State.setOrphan; simp [hK]
@[simp] theorem State.endOrphan_keeps {a0 : State} (s : State) (o : Orphan) (hK : Keeps a0 s) : Keeps a0
    (State.endOrphan s o) := by
  unfold State.endOrphan; simp +contextual (maxDischargeDepth := 30) [hK]
@[simp] theorem State.withoutDma_keeps {a : State} (t s : State) (hK : Keeps a t) : Keeps a (t.withoutDma s) := by
  unfold State.withoutDma; simp [hK]
@[simp] theorem State.orphanRes_keeps {a : State} (s : State) (o : Orphan) (r : Res) (hK : KeepsR a r) : Keeps a (s.orphanRes o r) := by
  unfold State.orphanRes; split <;> simp_all (maxDischargeDepth := 30)
@[simp] theorem State.writeBuf_keeps {a0 : State} (s : State) (addr : Addr) (bytes : List Byte) (hK : Keeps a0 s) :
    Keeps a0 (State.writeBuf s addr bytes) := by
  unfold State.writeBuf; simp [hK]

@[simp] theorem Res.settled_keeps {a : State} (r : Res) (qn : Nat) (row : CmdRow) (e : Exec) (hK : KeepsR a r) :
    Keeps a (r.settled qn row e) := by
  cases r <;> simp_all [Res.settled]
/-- A body whose rule keeps what it starts from. -/
def Body.Keeps (a : State) (b : Body) : Prop := ∀ s, Machine.Keeps a s → KeepsR a (b.act s) ∧ KeepsR a (b.again s)
theorem State.actOn_keeps {a : State} (s : State) (qn : Nat) (row : CmdRow) (e : Exec) (b : Body) (hb : b.Keeps a)
    (hK : Keeps a s) : Keeps a (s.actOn qn row e b) := by
  unfold State.actOn
  split
  · exact Res.settled_keeps _ _ _ _ (hb s hK).2
  · split
    · simp [hK]
    · dsimp only
      have hu := State.readied_keeps s qn (b.doms s) e hK
      split
      · exact Res.settled_keeps _ _ _ _ (hb _ hu).1
      · exact hu
theorem State.actOrphan_keeps {a : State} (s : State) (row : CmdRow) (o : Orphan) (b : Body) (hb : b.Keeps a)
    (hK : Keeps a s) : Keeps a (s.actOrphan row o b) := by
  unfold State.actOrphan
  split
  · exact State.orphanRes_keeps _ _ _ (hb s hK).2
  · split
    · simp [hK]
    · extract_lets ds fresh e1 o1 s1
      have h1 : Keeps a s1 := by simp +contextual (maxDischargeDepth := 30) [s1, hK]
      split
      · exact State.orphanRes_keeps _ _ _ (hb s1 h1).1
      · exact h1
theorem runCommand_keeps {a : State} (row : CmdRow) (sub : Sub) (param : BitVec 384) (b : Body) (s : State) (hb : b.Keeps a)
    (hK : Keeps a s) : Keeps a (runCommand row sub param b s) := by
  have h1 := State.startRow_keeps s sub row param hK
  unfold runCommand
  (repeat' split) <;> first
    | exact hK
    | exact State.actOn_keeps _ _ _ _ _ hb hK
    | exact State.actOrphan_keeps _ _ _ _ hb hK
    | (dsimp only; split; exact State.actOn_keeps _ _ _ _ _ hb h1; exact h1)
@[simp] theorem State.postWaiting_keeps {a : State} (n : Nat) : ∀ (s : State), Keeps a s → Keeps a (State.postWaiting n s) := by
  induction n with
  | zero => intro s hK; exact hK
  | succ n ih => intro s hK; unfold State.postWaiting; (repeat' split) <;> simp_all (maxDischargeDepth := 30)
@[simp] theorem State.postHeldEvents_keeps {a : State} (n q : Nat) : ∀ (s : State), Keeps a s → Keeps a (State.postHeldEvents n q s) := by
  induction n with
  | zero => intro s hK; exact hK
  | succ n ih => intro s hK; unfold State.postHeldEvents; (repeat' split) <;> simp_all (maxDischargeDepth := 30)
@[simp] theorem State.postOwed_keeps {a : State} (s : State) (hK : Keeps a s) : Keeps a (State.postOwed s) := by
  unfold State.postOwed
  refine Keeps.nats _ _ hK fun x hx n => ?_
  extract_lets y
  have h1 : Keeps a y := by dsimp only [y]; split <;> simp [hx]
  split <;> simp [h1]
@[simp] theorem State.deliver_keeps {a : State} (s : State) (q : Nat) (hK : Keeps a s) : Keeps a (State.deliver s q) := by
  unfold State.deliver; simp (maxDischargeDepth := 30) [hK]
@[simp] theorem State.writeComp_keeps {a0 : State} (s : State) (cqn : Nat) (r : CRing) (c : Comp) (hK : Keeps a0 s) :
    Keeps a0 (State.writeComp s cqn r c) := by
  unfold State.writeComp; simp +contextual (maxDischargeDepth := 30) [hK]
@[simp] theorem State.writeHeld_keeps {a : State} (n q : Nat) : ∀ (s : State), Keeps a s → Keeps a (State.writeHeld n q s) := by
  induction n with
  | zero => intro s hK; exact hK
  | succ n ih => intro s hK; unfold State.writeHeld; (repeat' split) <;> simp_all (maxDischargeDepth := 30)
@[simp] theorem State.resumeRing_keeps {a0 : State} (s : State) (cqn : Nat) (hK : Keeps a0 s) : Keeps a0
    (State.resumeRing s cqn) := by
  unfold State.resumeRing; (repeat' split) <;> simp_all +contextual (maxDischargeDepth := 30)
@[simp] theorem State.takeWindow_keeps {a0 : State} (s : State) (qn : Nat) (hK : Keeps a0 s) : Keeps a0
    (State.takeWindow s qn) := by
  unfold State.takeWindow; (repeat' split) <;> simp_all +contextual (maxDischargeDepth := 30)
@[simp] theorem State.takeRead_keeps {a0 : State} (s : State) (qn : Nat) (q : Queue) (read : List Entry) (hK : Keeps
    a0 s) : Keeps a0 (State.takeRead s qn q read) := by
  unfold State.takeRead; (repeat' split) <;> simp_all +contextual (maxDischargeDepth := 30)
@[simp] theorem State.takeReread_keeps {a0 : State} (s : State) (qn : Nat) (q : Queue) (e : Entry) (hK : Keeps a0 s)
    : Keeps a0 (State.takeReread s qn q e) := by
  unfold State.takeReread; simp +contextual (maxDischargeDepth := 30) [hK]
@[simp] theorem pollQueue_keeps {a0 : State} (qn : Nat) (read : Option (List Entry)) (s : State) (hK : Keeps a0 s) :
    Keeps a0 (pollQueue qn read s) := by
  unfold pollQueue; (repeat' split) <;> simp_all +contextual (maxDischargeDepth := 30)
@[simp] theorem rereadLap_keeps {a0 : State} (qn : Nat) (read : Option Entry) (s : State) (hK : Keeps a0 s) : Keeps
    a0 (rereadLap qn read s) := by
  unfold rereadLap; (repeat' split) <;> simp_all +contextual (maxDischargeDepth := 30)
@[simp] theorem State.raiseDma_keeps {a0 : State} (s : State) (gen : BitVec 8) (index : Nat) (hK : Keeps a0 s) :
    Keeps a0 (State.raiseDma s gen index) := by
  unfold State.raiseDma; simp +contextual (maxDischargeDepth := 30) [hK]
@[simp] theorem retrySubmission_keeps {a0 : State} (qn : Nat) (read : Option (List Entry)) (s : State) (hK : Keeps
    a0 s) : Keeps a0 (retrySubmission qn read s) := by
  unfold retrySubmission; (repeat' split) <;> simp_all +contextual (maxDischargeDepth := 30)
@[simp] theorem startNext_keeps {a0 : State} (qn : Nat) (s : State) (hK : Keeps a0 s) : Keeps a0 (startNext qn s) := by
  unfold startNext; (repeat' split) <;> simp_all +contextual (maxDischargeDepth := 30)
@[simp] theorem writeNext_keeps {a0 : State} (cqn : Nat) (s : State) (hK : Keeps a0 s) : Keeps a0 (writeNext cqn s) := by
  unfold writeNext; (repeat' split) <;> simp_all +contextual (maxDischargeDepth := 30)
@[simp] theorem State.takeCqRoom_keeps {a0 : State} (s : State) (cqn : Nat) (r : CRing) (room : Nat) (hK : Keeps a0
    s) : Keeps a0 (State.takeCqRoom s cqn r room) := by
  unfold State.takeCqRoom; simp +contextual (maxDischargeDepth := 30) [hK]
@[simp] theorem pollCq_keeps {a0 : State} (cqn : Nat) (room : Option Nat) (s : State) (hK : Keeps a0 s) : Keeps a0
    (pollCq cqn room s) := by
  unfold pollCq; (repeat' split) <;> simp_all +contextual (maxDischargeDepth := 30)
@[simp] theorem State.takeEventRoom_keeps {a0 : State} (s : State) (qn : Nat) (r : EvRing) (room : Nat) (hK : Keeps
    a0 s) : Keeps a0 (State.takeEventRoom s qn r room) := by
  unfold State.takeEventRoom; simp +contextual (maxDischargeDepth := 30) [hK]
@[simp] theorem State.eventReads_keeps {a0 : State} (s : State) (qn : Nat) (r : EvRing) (x : RingReads) (hK : Keeps
    a0 s) : Keeps a0 (State.eventReads s qn r x) := by
  unfold State.eventReads; simp +contextual (maxDischargeDepth := 30) [hK]
@[simp] theorem pollEvents_keeps {a0 : State} (qn : Nat) (room : Option Nat) (s : State) (hK : Keeps a0 s) : Keeps
    a0 (pollEvents qn room s) := by
  unfold pollEvents; (repeat' split) <;> simp_all +contextual (maxDischargeDepth := 30)
@[simp] theorem State.takeRecords_keeps {a0 : State} (s : State) (returned : Nat) (hK : Keeps a0 s) : Keeps a0
    (State.takeRecords s returned) := by
  unfold State.takeRecords; simp +contextual (maxDischargeDepth := 30) [hK]
@[simp] theorem pollFaultRecords_keeps {a0 : State} (returned : Option Nat) (s : State) (hK : Keeps a0 s) : Keeps a0
    (pollFaultRecords returned s) := by
  unfold pollFaultRecords; (repeat' split) <;> simp_all +contextual (maxDischargeDepth := 30)
@[simp] theorem retryCompletion_keeps {a0 : State} (cqn : Nat) (room : Option Nat) (s : State) (hK : Keeps a0 s) :
    Keeps a0 (retryCompletion cqn room s) := by
  unfold retryCompletion; (repeat' split) <;> simp_all +contextual (maxDischargeDepth := 30)
theorem retryEvent_keeps {a : State} (qn : Nat) (found : Option (EvRing → State → State)) (s : State)
    (hf : ∀ f ∈ found, ∀ r, Keeps a (f r s)) (hK : Keeps a s) : Keeps a (retryEvent qn found s) := by
  unfold retryEvent
  (repeat' split) <;> first
    | exact hK
    | exact hf _ rfl _
    | simp +contextual (maxDischargeDepth := 30) [hK]
@[simp] theorem endHoldoff_keeps {a0 : State} (ring : RingId) (s : State) (hK : Keeps a0 s) : Keeps a0 (endHoldoff
    ring s) := by
  unfold endHoldoff; (repeat' split) <;> simp_all +contextual (maxDischargeDepth := 30)
@[simp] theorem State.regReject_keeps {a0 : State} (s : State) (source offset : Nat) (hK : Keeps a0 s) : Keeps a0
    (State.regReject s source offset) := by
  unfold State.regReject; simp [hK]
@[simp] theorem State.adminStart_keeps {a0 : State} (s : State) (v : BitVec 64) (hK : Keeps a0 s) : Keeps a0
    (State.adminStart s v) := by
  unfold State.adminStart; simp [hK]
@[simp] theorem applyAdminCtl_keeps {a0 : State} (v : BitVec 64) (s : State) (hK : Keeps a0 s) : Keeps a0
    (applyAdminCtl v s) := by
  unfold applyAdminCtl; simp +contextual (maxDischargeDepth := 30) [hK]
@[simp] theorem writeAdminCtl_keeps {a0 : State} (v : BitVec 64) (s : State) (hK : Keeps a0 s) : Keeps a0
    (writeAdminCtl v s) := by
  unfold writeAdminCtl; simp +contextual (maxDischargeDepth := 30) [hK]
@[simp] theorem State.clearQueueCounters_keeps {a0 : State} (s : State) (n : Nat) (hK : Keeps a0 s) : Keeps a0
    (State.clearQueueCounters s n) := by
  unfold State.clearQueueCounters; simp +contextual (maxDischargeDepth := 30) [hK]
@[simp] theorem State.moveHeld_keeps {a0 : State} (s : State) (r : Option EvRing) (hK : Keeps a0 s) : Keeps a0
    (State.moveHeld s r) := by
  unfold State.moveHeld; (repeat' split) <;> simp_all +contextual (maxDischargeDepth := 30)
@[simp] theorem State.dropQueue_keeps {a : State} (s : State) (n : Nat) (hK : Keeps a s) : Keeps a (s.dropQueue n) :=
  State.moveHeld_keeps _ _ ((State.clearQueueCounters_keeps s n hK).of rfl rfl rfl rfl rfl rfl rfl)
@[simp] theorem State.dropCq_keeps {a : State} (s : State) (n : Nat) (hK : Keeps a s) : Keeps a (s.dropCq n) :=
  (State.clearSlots_keeps s (0x100 + n) 16 17 hK).of rfl rfl rfl rfl rfl rfl rfl
@[simp] theorem queueDestroyAct_keeps {a0 : State} (n : Nat) (h : Handle) (s : State) (hK : Keeps a0 s) : KeepsR a0
    (queueDestroyAct n h s) := by
  unfold queueDestroyAct; (repeat' split) <;> simp_all +contextual (maxDischargeDepth := 30)
@[simp] theorem cqDestroyAct_keeps {a0 : State} (n : Nat) (h : Handle) (s : State) (hK : Keeps a0 s) : KeepsR a0
    (cqDestroyAct n h s) := by
  unfold cqDestroyAct; (repeat' split) <;> simp_all +contextual (maxDischargeDepth := 30)

@[simp] theorem State.offerItem_keeps {a0 : State} (s : State) (q : Nat) (i : ItemInfo) (bytes : List Byte) (hK :
    Keeps a0 s) : Keeps a0 (State.offerItem s q i bytes).1 := by
  unfold State.offerItem; simp +contextual (maxDischargeDepth := 30) [hK]
@[simp] theorem swapBanks_keeps {a0 : State} (q : Nat) (s : State) (hK : Keeps a0 s) : Keeps a0 (swapBanks q s) := by
  unfold swapBanks; simp [hK]
@[simp] theorem itemWritten_keeps {a0 : State} (q : Nat) (s : State) (hK : Keeps a0 s) : Keeps a0 (itemWritten q s) := by
  unfold itemWritten; dsimp only; (repeat' split) <;> simp_all +contextual (maxDischargeDepth := 30)
@[simp] theorem State.takeNotices_keeps {a0 : State} (s : State) (q returned : Nat) (hK : Keeps a0 s) : Keeps a0
    (State.takeNotices s q returned) := by
  unfold State.takeNotices; simp +contextual (maxDischargeDepth := 30) [hK]
@[simp] theorem noticesReturned_keeps {a0 : State} (q : Nat) (returned : Option Nat) (s : State) (hK : Keeps a0 s) :
    Keeps a0 (noticesReturned q returned s) := by
  unfold noticesReturned; (repeat' split) <;> simp_all +contextual (maxDischargeDepth := 30)
@[simp] theorem retryNotices_keeps {a0 : State} (q : Nat) (returned : Option Nat) (s : State) (hK : Keeps a0 s) :
    Keeps a0 (retryNotices q returned s) := by
  unfold retryNotices; (repeat' split) <;> simp_all +contextual (maxDischargeDepth := 30)
@[simp] theorem retryRead_keeps {a : State} (n : Nat) (x : RetriedRead) (s : State) (hK : Keeps a s) : Keeps a (retryRead n x s) := by
  cases x <;> unfold retryRead <;> dsimp only <;> first
    | exact retryEvent_keeps _ _ _ (by simp +contextual (maxDischargeDepth := 30) [hK]) hK
    | simp [hK]
@[simp] theorem State.flushBanks_keeps {a0 : State} (s : State) (q : Nat) (hK : Keeps a0 s) : Keeps a0
    (State.flushBanks s q) := by
  unfold State.flushBanks; simp +contextual (maxDischargeDepth := 30) [hK]
@[simp] theorem writeStrCfg_keeps {a0 : State} (q : Nat) (v : BitVec 64) (s : State) (hK : Keeps a0 s) : Keeps a0
    (writeStrCfg q v s) := by
  unfold writeStrCfg; simp +contextual (maxDischargeDepth := 30) [hK]
@[simp] theorem writeFlush_keeps {a0 : State} (q : Nat) (s : State) (hK : Keeps a0 s) : Keeps a0 (writeFlush q s) := by
  unfold writeFlush; simp [hK]

@[simp] theorem countOccurrence_keeps {a0 : State} (s : State) (m : BitVec 128) (hK : Keeps a0 s) : Keeps a0
    (countOccurrence s m).1 := by
  unfold countOccurrence; dsimp only; (repeat' split) <;> simp_all +contextual (maxDischargeDepth := 30)
@[simp] theorem State.logFault_keeps {a0 : State} (s : State) (m : BitVec 128) (hK : Keeps a0 s) : Keeps a0
    (State.logFault s m) := by
  unfold State.logFault; simp [hK]
@[simp] theorem State.postFault_keeps {a0 : State} (s : State) (m : BitVec 128) (hK : Keeps a0 s) : Keeps a0
    (State.postFault s m) := by
  unfold State.postFault; simp +contextual (maxDischargeDepth := 30) [hK]
@[simp] theorem State.judge_keeps {a0 : State} (s : State) (sent : BitVec 128) (hK : Keeps a0 s) : Keeps a0
    (State.judge s sent).1 := by
  unfold State.judge; simp +contextual (maxDischargeDepth := 30) [hK]
@[simp] theorem faultAckAct_keeps {a0 : State} (m : BitVec 128) (s : State) (hK : Keeps a0 s) : KeepsR a0
    (faultAckAct m s) := by
  unfold faultAckAct; (repeat' split) <;> simp_all +contextual (maxDischargeDepth := 30)
@[simp] theorem endWindow_keeps {a0 : State} (source : BitVec 16) (kind : BitVec 10) (gen : BitVec 8) (s : State) (hK
    : Keeps a0 s) : Keeps a0 (endWindow source kind gen s) := by
  unfold endWindow; simp [hK]
@[simp] theorem latchFwStatus_keeps {a0 : State} (s : State) (hK : Keeps a0 s) : Keeps a0 (latchFwStatus s) := by
  unfold latchFwStatus; simp +contextual (maxDischargeDepth := 30) [hK]

@[simp] theorem State.powerOff_keeps {a0 : State} (s : State) (d : Nat) (hK : Keeps a0 s) : Keeps a0 (State.powerOff
    s d) := by
  unfold State.powerOff; simp +contextual (maxDischargeDepth := 30) [hK]
@[simp] theorem holdoffExpiry_keeps {a0 : State} (d : Nat) (s : State) (hK : Keeps a0 s) : Keeps a0 (holdoffExpiry d s) := by
  unfold holdoffExpiry; simp +contextual (maxDischargeDepth := 30) [hK]
@[simp] theorem dropDone_keeps {a0 : State} (d : Nat) (s : State) (hK : Keeps a0 s) : Keeps a0 (dropDone d s) := by
  unfold dropDone; dsimp only; (repeat' split) <;> simp_all +contextual (maxDischargeDepth := 30)
@[simp] theorem pwrVoteAct_keeps {a0 : State} (queue : QueueNo) (d : Nat) (take : Bool) (s : State) (hK : Keeps a0 s)
    : KeepsR a0 (pwrVoteAct queue d take s) := by
  unfold pwrVoteAct; dsimp only; (repeat' split) <;> simp_all +contextual (maxDischargeDepth := 30)
@[simp] theorem State.finishTakes_keeps {a0 : State} (s : State) (d : Nat) (hK : Keeps a0 s) : Keeps a0
    (State.finishTakes s d) := by
  unfold State.finishTakes; simp +contextual (maxDischargeDepth := 30) [hK]
@[simp] theorem State.modRail_keeps {a0 : State} (s : State) (r : Nat) (f : Rail → Rail) (hK : Keeps a0 s) : Keeps a0
    (State.modRail s r f) := by
  unfold State.modRail; simp [hK]
@[simp] theorem dipStart_keeps {a0 : State} (r : Nat) (s : State) (hK : Keeps a0 s) : Keeps a0 (dipStart r s) := by
  unfold dipStart; simp +contextual (maxDischargeDepth := 30) [hK]
@[simp] theorem dipEnd_keeps {a0 : State} (r : Nat) (minPm : BitVec 10) (durationNs : Nat) (s : State) (hK : Keeps a0
    s) : Keeps a0 (dipEnd r minPm durationNs s) := by
  unfold dipEnd; simp +contextual (maxDischargeDepth := 30) [hK]
@[simp] theorem readResetCause_keeps {a0 : State} (s : State) (hK : Keeps a0 s) : Keeps a0 (readResetCause s) := by
  unfold readResetCause; simp +contextual (maxDischargeDepth := 30) [hK]

end Sys2Proof.Machine
end

