-- ==== Sys2Proof/Laws/KeepsLanes.lean ====
section
/-! SUPPORT. What leaves the command queue, the mode and the soundness of the state alone: the audit unit, the buffers, lanes and links. -/

set_option linter.unusedSimpArgs false

namespace Sys2Proof.Machine

@[simp] theorem State.enterFull_keeps {a0 : State} (s : State) (c : Nat) (hK : Keeps a0 s) : Keeps a0
    (State.enterFull s c) := by
  unfold State.enterFull; simp +contextual (maxDischargeDepth := 30) [hK]
@[simp] theorem State.pushRec_keeps {a0 : State} (s : State) (c slots : Nat) (p : Place) (bits : BitVec 2048) (hK :
    Keeps a0 s) : Keeps a0 (State.pushRec s c slots p bits) := by
  unfold State.pushRec; simp +contextual (maxDischargeDepth := 30) [hK]
@[simp] theorem State.skipRec_keeps {a0 : State} (s : State) (c : Nat) (hK : Keeps a0 s) : Keeps a0 (State.skipRec s c) := by
  unfold State.skipRec; simp +contextual (maxDischargeDepth := 30) [hK]
@[simp] theorem State.pushSys_keeps {a0 : State} (s : State) (c slots : Nat) (bits : BitVec 2048) (hK : Keeps a0 s) :
    Keeps a0 (State.pushSys s c slots bits).1 := by
  unfold State.pushSys; (repeat' split) <;> simp_all +contextual (maxDischargeDepth := 30)
@[simp] theorem State.checkpoint_keeps {a : State} (s : State) (c : Nat) (timer close : Bool) (hK : Keeps a s) :
    Keeps a (State.checkpoint s c timer close) := by
  unfold State.checkpoint
  have h1 := State.pushSys_keeps s c 4 (checkpointBits s c timer close) hK
  dsimp only
  split
  next t e => rw [e] at h1; simp_all (maxDischargeDepth := 30)
  next t e => rw [e] at h1; simp_all (maxDischargeDepth := 30)
@[simp] theorem State.dueCp_keeps {a0 : State} (s : State) (c : Nat) (hK : Keeps a0 s) : Keeps a0 (State.dueCp s c) := by
  unfold State.dueCp; split
  · exact State.modChain_keeps _ _ _ (State.checkpoint_keeps _ _ _ _ hK)
  · exact hK
@[simp] theorem State.writeGap_keeps {a : State} (s : State) (c : Nat) (hK : Keeps a s) : Keeps a (State.writeGap s c) := by
  unfold State.writeGap
  split
  · exact hK
  · extract_lets s1 cause bits
    have h1 := State.pushSys_keeps s1 c 1 bits (State.dueCp_keeps s c hK)
    split
    next t e => rw [e] at h1; simp_all (maxDischargeDepth := 30)
    next t e => rw [e] at h1; simp_all (maxDischargeDepth := 30)
@[simp] theorem State.beforeRec_keeps {a0 : State} (s : State) (c : Nat) (hK : Keeps a0 s) : Keeps a0
    (State.beforeRec s c) := by
  unfold State.beforeRec; simp +contextual (maxDischargeDepth := 30) [hK]
@[simp] theorem State.auditEvent_keeps {a0 : State} (s : State) (kind : Nat) (value : BitVec 64) (old new : Nat)
    (time : TimeVal) (hK : Keeps a0 s) : Keeps a0 (State.auditEvent s kind value old new time) := by
  unfold State.auditEvent; simp +contextual (maxDischargeDepth := 30) [hK]
@[simp] theorem State.modChains_keeps {a0 : State} (s : State) (f : Chain → Chain) (hK : Keeps a0 s) : Keeps a0
    (State.modChains s f) := by
  unfold State.modChains; simp +contextual (maxDischargeDepth := 30) [hK]
@[simp] theorem State.takeIn_keeps {a0 : State} (s : State) (c : Nat) (hK : Keeps a0 s) : Keeps a0 (State.takeIn s
    c) := by
  unfold State.takeIn; simp +contextual (maxDischargeDepth := 30) [hK]
@[simp] theorem State.missFrame_keeps {a0 : State} (s : State) (c p : Nat) (hold : Bool) (stamp : TimeVal) (hK :
    Keeps a0 s) : Keeps a0 (State.missFrame s c p hold stamp) := by
  unfold State.missFrame; simp +contextual (maxDischargeDepth := 30) [hK]
@[simp] theorem State.recordFrame_keeps {a0 : State} (s : State) (c : Nat) (p : Place) (f : FrameFacts) (hK : Keeps
    a0 s) : Keeps a0 (State.recordFrame s c p f) := by
  unfold State.recordFrame; simp +contextual (maxDischargeDepth := 30) [hK]
@[simp] theorem State.beforeFrame_keeps {a0 : State} (s : State) (c : Nat) (hold sent : Bool) (hK : Keeps a0 s) :
    Keeps a0 (State.beforeFrame s c hold sent) := by
  unfold State.beforeFrame; dsimp only; (repeat' split) <;> simp_all +contextual (maxDischargeDepth := 30)
@[simp] theorem State.auditFrame_keeps {a0 : State} (s : State) (f : FrameFacts) (hK : Keeps a0 s) : Keeps a0
    (State.auditFrame s f).1 := by
  unfold State.auditFrame; dsimp only; (repeat' split) <;> simp_all +contextual (maxDischargeDepth := 30)
@[simp] theorem State.leaveFull_keeps {a0 : State} (s : State) (c : Nat) (hK : Keeps a0 s) : Keeps a0
    (State.leaveFull s c) := by
  unfold State.leaveFull; simp +contextual (maxDischargeDepth := 30) [hK]
@[simp] theorem State.freeSlots_keeps {a0 : State} (s : State) (c : Nat) (hK : Keeps a0 s) : Keeps a0
    (State.freeSlots s c) := by
  unfold State.freeSlots; simp [hK]
@[simp] theorem State.agents_keeps {a0 : State} (s : State) (hK : Keeps a0 s) : Keeps a0 (State.agents s) := by
  unfold State.agents; simp +contextual (maxDischargeDepth := 30) [hK]
@[simp] theorem State.openEpoch_keeps {a0 : State} (s : State) (cause : Nat) (hK : Keeps a0 s) : Keeps a0
    (State.openEpoch s cause) := by
  unfold State.openEpoch; simp +contextual (maxDischargeDepth := 30) [hK]
@[simp] theorem State.closeEpoch_keeps {a0 : State} (s : State) (hK : Keeps a0 s) : Keeps a0 (State.closeEpoch s) := by
  unfold State.closeEpoch; simp +contextual (maxDischargeDepth := 30) [hK]
@[simp] theorem countCp_keeps {a0 : State} (c : Nat) (s : State) (hK : Keeps a0 s) : Keeps a0 (countCp c s) := by
  unfold countCp; simp [hK]
@[simp] theorem timerCp_keeps {a0 : State} (c : Nat) (s : State) (hK : Keeps a0 s) : Keeps a0 (timerCp c s) := by
  unfold timerCp; simp [hK]
@[simp] theorem signCp_keeps {a0 : State} (c : Nat) (ok : Bool) (s : State) (hK : Keeps a0 s) : Keeps a0 (signCp c ok
    s) := by
  unfold signCp; dsimp only; (repeat' split) <;> simp_all +contextual (maxDischargeDepth := 30)
@[simp] theorem State.spoolErrors_keeps {a : State} (s : State) (c : Nat) (l : List ARec) (bad : SpoolErrors)
    (hK : Keeps a s) : Keeps a (s.spoolErrors c l bad) := by
  unfold State.spoolErrors
  exact Keeps.ite hK (Keeps.list' _ _ hK fun x hx d => by split <;> simp [hx])
@[simp] theorem handBack_keeps {a0 : State} (c : Nat) (bad : SpoolErrors) (s : State) (hK : Keeps a0 s) : Keeps a0
    (handBack c bad s) := by
  unfold handBack; dsimp only; (repeat' split) <;> simp_all +contextual (maxDischargeDepth := 30)
@[simp] theorem certGet_keeps {a0 : State} (buf : Addr) (s : State) (hK : Keeps a0 s) : KeepsR a0 (certGet buf s) := by
  unfold certGet; simp [hK]
@[simp] theorem bufPost_keeps {a0 : State} (addr : Addr) (len : BitVec 32) (c : Nat) (s : State) (hK : Keeps a0 s) :
    KeepsR a0 (bufPost addr len c s) := by
  unfold bufPost; dsimp only; (repeat' split) <;> simp_all +contextual (maxDischargeDepth := 30)
@[simp] theorem bufReclaim_keeps {a0 : State} (c : Nat) (s : State) (hK : Keeps a0 s) : KeepsR a0 (bufReclaim c s) := by
  unfold bufReclaim; simp [hK]

@[simp] theorem State.countIn_keeps {a0 : State} (s : State) (f : Frame) (slot : Nat) (hK : Keeps a0 s) : Keeps a0
    (State.countIn s f slot) := by
  unfold State.countIn; simp [hK]
@[simp] theorem State.emptyBanks_keeps {a0 : State} (s : State) (sl : Nat) (hK : Keeps a0 s) : Keeps a0
    (State.emptyBanks s sl) := by
  unfold State.emptyBanks; simp +contextual (maxDischargeDepth := 30) [hK]
@[simp] theorem State.bufVote_keeps {a0 : State} (s : State) (sl : Nat) (hK : Keeps a0 s) : Keeps a0 (State.bufVote s
    sl) := by
  unfold State.bufVote; simp +contextual (maxDischargeDepth := 30) [hK]
@[simp] theorem State.sendPause_keeps {a0 : State} (s : State) (p c : Nat) (xoff : Bool) (hK : Keeps a0 s) : Keeps a0
    (State.sendPause s p c xoff) := by
  unfold State.sendPause; (repeat' split) <;> simp_all +contextual (maxDischargeDepth := 30)
@[simp] theorem State.checkIpc_keeps {a0 : State} (s : State) (p c : Nat) (hK : Keeps a0 s) : Keeps a0
    (State.checkIpc s p c) := by
  unfold State.checkIpc; (repeat' split) <;> simp_all +contextual (maxDischargeDepth := 30)
@[simp] theorem State.charge_keeps {a0 : State} (s : State) (f : Frame) (acc : Account) (n : Nat) (add : Bool) (hK :
    Keeps a0 s) : Keeps a0 (State.charge s f acc n add) := by
  unfold State.charge; (repeat' split) <;> simp_all +contextual (maxDischargeDepth := 30)
@[simp] theorem State.release_keeps {a0 : State} (s : State) (f : Frame) (hK : Keeps a0 s) : Keeps a0 (State.release
    s f) := by
  unfold State.release; simp [hK]
@[simp] theorem State.spillRefill_keeps {a0 : State} (s : State) (q : Nat) (hK : Keeps a0 s) : Keeps a0
    (State.spillRefill s q) := by
  unfold State.spillRefill; simp [hK]
@[simp] theorem State.spillTake_keeps {a : State} (s : State) (q k : Nat) (hK : Keeps a s) : Keeps a (s.spillTake q k).1 := by
  unfold State.spillTake; simp (maxDischargeDepth := 30) [hK]
@[simp] theorem State.spillGive_keeps {a0 : State} (s : State) (q : Nat) (r : Runs) (hK : Keeps a0 s) : Keeps a0
    (State.spillGive s q r) := by
  unfold State.spillGive; simp +contextual (maxDischargeDepth := 30) [hK]
@[simp] theorem State.countEnq_keeps {a0 : State} (s : State) (v : Nat) (f : Frame) (hK : Keeps a0 s) : Keeps a0
    (State.countEnq s v f) := by
  unfold State.countEnq; simp [hK]
@[simp] theorem State.admDrop_keeps {a0 : State} (s : State) (v : Option Nat) (p slot : Nat) (hK : Keeps a0 s) :
    Keeps a0 (State.admDrop s v p slot) := by
  unfold State.admDrop; (repeat' split) <;> simp_all +contextual (maxDischargeDepth := 30)
@[simp] theorem State.spillWrite_keeps {a0 : State} (s : State) (v : Nat) (f : Frame) (hK : Keeps a0 s) : Keeps a0
    (State.spillWrite s v f) := by
  unfold State.spillWrite; dsimp only; (repeat' split) <;> simp_all +contextual (maxDischargeDepth := 30)
@[simp] theorem State.enqueue_keeps {a0 : State} (s : State) (v : Nat) (f : Frame) (hK : Keeps a0 s) : Keeps a0
    (State.enqueue s v f) := by
  unfold State.enqueue; simp +contextual (maxDischargeDepth := 30) [hK]
theorem trueUp_keeps {a : State} (s : State) (f : Frame) (n : Nat) (hK : Keeps a s) :
    ∀ r, trueUp s f n = some r → Keeps a r.1 := by
  intro r; unfold trueUp; dsimp only; split
  · rintro ⟨⟩; simp [hK]
  · split
    · rintro ⟨⟩; simp [hK]
    · rintro ⟨⟩
@[simp] theorem State.admitFrame_keeps {a : State} (s : State) (p : Nat) (f : Frame) (hK : Keeps a s) : Keeps a (State.admitFrame s p f) := by
  unfold State.admitFrame
  extract_lets v n x ok stamped acc g s1
  have h1 : Keeps a s1 := by simp [s1, hK]
  have h2 := trueUp_keeps s1 g n h1
  (repeat' split) <;> first
    | (simp (maxDischargeDepth := 30) [hK, h1]; done)
    | (simp (maxDischargeDepth := 30) [h2 _ (by assumption)]; done)
@[simp] theorem State.voidCells_keeps {a0 : State} (s : State) (p : Cell → Bool) (hK : Keeps a0 s) : Keeps a0
    (State.voidCells s p) := by
  unfold State.voidCells; simp +contextual (maxDischargeDepth := 30) [hK]
@[simp] theorem State.voidHead_keeps {a0 : State} (s : State) (v : Nat) (hK : Keeps a0 s) : Keeps a0 (State.voidHead
    s v) := by
  unfold State.voidHead; (repeat' split) <;> simp_all +contextual (maxDischargeDepth := 30)
@[simp] theorem State.discardVoq_keeps {a0 : State} (s : State) (v : Nat) (hK : Keeps a0 s) : Keeps a0
    (State.discardVoq s v).1 := by
  unfold State.discardVoq; simp +contextual (maxDischargeDepth := 30) [hK]
@[simp] theorem State.discardToward_keeps {a0 : State} (s : State) (p slot : Nat) (cs : List Nat) (hK : Keeps a0 s) :
    Keeps a0 (State.discardToward s p slot cs) := by
  unfold State.discardToward; simp +contextual (maxDischargeDepth := 30) [hK]
@[simp] theorem State.lostOwn_keeps {a0 : State} (s : State) (f : Frame) (hK : Keeps a0 s) : Keeps a0 (State.lostOwn
    s f) := by
  unfold State.lostOwn; (repeat' split) <;> simp_all +contextual (maxDischargeDepth := 30)
@[simp] theorem State.discardEq_keeps {a0 : State} (s : State) (p slot : Nat) (hK : Keeps a0 s) : Keeps a0
    (State.discardEq s p slot) := by
  unfold State.discardEq; (repeat' split) <;> simp_all +contextual (maxDischargeDepth := 30)
@[simp] theorem State.voidToward_keeps {a0 : State} (s : State) (p : Nat) (hK : Keeps a0 s) : Keeps a0
    (State.voidToward s p) := by
  unfold State.voidToward; simp +contextual (maxDischargeDepth := 30) [hK]
@[simp] theorem State.auditTx_keeps {a0 : State} (s : State) (p : Nat) (x : Port) (f : Frame) (term : Bool) (hK :
    Keeps a0 s) : Keeps a0 (State.auditTx s p x f term) := by
  unfold State.auditTx; (repeat' split) <;> simp_all +contextual (maxDischargeDepth := 30)
@[simp] theorem State.endTx_keeps {a0 : State} (s : State) (p : Nat) (hK : Keeps a0 s) : Keeps a0 (State.endTx s p) := by
  unfold State.endTx; (repeat' split) <;> simp_all +contextual (maxDischargeDepth := 30)
@[simp] theorem State.flushPort_keeps {a0 : State} (s : State) (p : Nat) (hK : Keeps a0 s) : Keeps a0
    (State.flushPort s p) := by
  unfold State.flushPort; simp +contextual (maxDischargeDepth := 30) [hK]

@[simp] theorem State.postScan_keeps {a0 : State} (s : State) (l : Nat) (x : Scan) (outcome : BitVec 8) (hK : Keeps
    a0 s) : Keeps a0 (State.postScan s l x outcome) := by
  unfold State.postScan; simp +contextual (maxDischargeDepth := 30) [hK]
@[simp] theorem State.endScan_keeps {a0 : State} (s : State) (l : Nat) (outcome : BitVec 8) (hK : Keeps a0 s) : Keeps
    a0 (State.endScan s l outcome) := by
  unfold State.endScan; (repeat' split) <;> simp_all +contextual (maxDischargeDepth := 30)
@[simp] theorem State.sampleLane_keeps {a0 : State} (s : State) (l : Nat) (hK : Keeps a0 s) : Keeps a0
    (State.sampleLane s l) := by
  unfold State.sampleLane; simp +contextual (maxDischargeDepth := 30) [hK]
@[simp] theorem State.moveLane_keeps {a0 : State} (s : State) (l : Nat) (st : LaneState) (hK : Keeps a0 s) : Keeps a0
    (State.moveLane s l st) := by
  unfold State.moveLane; simp +contextual (maxDischargeDepth := 30) [hK]
@[simp] theorem State.moveLanes_keeps {a0 : State} (s : State) (p : Nat) (st : LaneState) (hK : Keeps a0 s) : Keeps
    a0 (State.moveLanes s p st) := by
  unfold State.moveLanes; (repeat' split) <;> simp_all +contextual (maxDischargeDepth := 30)
@[simp] theorem State.modLink_keeps {a0 : State} (s : State) (p : Nat) (f : LinkState → LinkState) (hK : Keeps a0 s)
    : Keeps a0 (State.modLink s p f) := by
  unfold State.modLink; simp [hK]
@[simp] theorem State.linkDown_keeps {a0 : State} (s : State) (p : Nat) (hK : Keeps a0 s) : Keeps a0 (State.linkDown
    s p) := by
  unfold State.linkDown; simp +contextual (maxDischargeDepth := 30) [hK]
@[simp] theorem State.startTrain_keeps {a0 : State} (s : State) (p : Nat) (st : LaneState) (hK : Keeps a0 s) : Keeps
    a0 (State.startTrain s p st) := by
  unfold State.startTrain; (repeat' split) <;> simp_all +contextual (maxDischargeDepth := 30)
@[simp] theorem State.tryTrain_keeps {a0 : State} (s : State) (p : Nat) (hK : Keeps a0 s) : Keeps a0 (State.tryTrain
    s p) := by
  unfold State.tryTrain; (repeat' split) <;> simp_all +contextual (maxDischargeDepth := 30)
@[simp] theorem State.listen_keeps {a0 : State} (s : State) (p : Nat) (hK : Keeps a0 s) : Keeps a0 (State.listen s p) := by
  unfold State.listen; simp +contextual (maxDischargeDepth := 30) [hK]
@[simp] theorem State.retrain_keeps {a0 : State} (s : State) (p : Nat) (hK : Keeps a0 s) : Keeps a0 (State.retrain s p) := by
  unfold State.retrain; simp +contextual (maxDischargeDepth := 30) [hK]
@[simp] theorem State.timeOut_keeps {a0 : State} (s : State) (p : Nat) (hK : Keeps a0 s) : Keeps a0 (State.timeOut s p) := by
  unfold State.timeOut; (repeat' split) <;> simp_all +contextual (maxDischargeDepth := 30)
@[simp] theorem State.stopTest_keeps {a0 : State} (s : State) (p l : Nat) (hK : Keeps a0 s) : Keeps a0
    (State.stopTest s p l) := by
  unfold State.stopTest; simp +contextual (maxDischargeDepth := 30) [hK]
@[simp] theorem State.bringUp_keeps {a0 : State} (s : State) (p : Nat) (hK : Keeps a0 s) : Keeps a0 (State.bringUp s p) := by
  unfold State.bringUp; (repeat' split) <;> simp_all +contextual (maxDischargeDepth := 30)
@[simp] theorem State.enablePort_keeps {a0 : State} (s : State) (p : Nat) (hK : Keeps a0 s) : Keeps a0
    (State.enablePort s p) := by
  unfold State.enablePort; (repeat' split) <;> simp_all +contextual (maxDischargeDepth := 30)
@[simp] theorem State.disablePort_keeps {a0 : State} (s : State) (p : Nat) (hK : Keeps a0 s) : Keeps a0
    (State.disablePort s p) := by
  unfold State.disablePort; (repeat' split) <;> simp_all +contextual (maxDischargeDepth := 30)
@[simp] theorem writePortCfg_keeps {a0 : State} (p : Nat) (v : BitVec 64) (s : State) (hK : Keeps a0 s) : Keeps a0
    (writePortCfg p v s) := by
  unfold writePortCfg; (repeat' split) <;> simp_all +contextual (maxDischargeDepth := 30)
@[simp] theorem signalOn_keeps {a0 : State} (l : Nat) (s : State) (hK : Keeps a0 s) : Keeps a0 (signalOn l s) := by
  unfold signalOn; dsimp only; (repeat' split) <;> simp_all +contextual (maxDischargeDepth := 30)
@[simp] theorem signalOff_keeps {a0 : State} (l : Nat) (s : State) (hK : Keeps a0 s) : Keeps a0 (signalOff l s) := by
  unfold signalOff; dsimp only; (repeat' split) <;> simp_all +contextual (maxDischargeDepth := 30)
@[simp] theorem autonegDone_keeps {a0 : State} (p : Nat) (s : State) (hK : Keeps a0 s) : Keeps a0 (autonegDone p s) := by
  unfold autonegDone; simp [hK]
@[simp] theorem State.answerTaps_keeps {a0 : State} (s : State) (l : Nat) (rs : List TapRequest) (hK : Keeps a0 s) :
    Keeps a0 (State.answerTaps s l rs) := by
  unfold State.answerTaps; simp +contextual (maxDischargeDepth := 30) [hK]
@[simp] theorem State.trainLane_keeps {a0 : State} (s : State) (x : Port) (preset : Option (BitVec 8)) (rs : List
    TapRequest) (l : Nat) (hK : Keeps a0 s) : Keeps a0 (State.trainLane s x preset rs l) := by
  unfold State.trainLane; simp +contextual (maxDischargeDepth := 30) [hK]
@[simp] theorem trainDone_keeps {a0 : State} (p : Nat) (presets : List (Option (BitVec 8))) (requests : List (List
    TapRequest)) (s : State) (hK : Keeps a0 s) : Keeps a0 (trainDone p presets requests s) := by
  unfold trainDone; (repeat' split) <;> simp_all +contextual (maxDischargeDepth := 30)
@[simp] theorem lockAlign_keeps {a0 : State} (p : Nat) (skews : List (BitVec 32)) (s : State) (hK : Keeps a0 s) :
    Keeps a0 (lockAlign p skews s) := by
  unfold lockAlign; (repeat' split) <;> simp_all +contextual (maxDischargeDepth := 30)
@[simp] theorem alignLost_keeps {a0 : State} (p : Nat) (s : State) (hK : Keeps a0 s) : Keeps a0 (alignLost p s) := by
  unfold alignLost; simp +contextual (maxDischargeDepth := 30) [hK]
@[simp] theorem rsFault_keeps {a0 : State} (p : Nat) (f : RsFault) (s : State) (hK : Keeps a0 s) : Keeps a0 (rsFault
    p f s) := by
  unfold rsFault; (repeat' split) <;> simp_all +contextual (maxDischargeDepth := 30)
@[simp] theorem linkComesUp_keeps {a0 : State} (p : Nat) (s : State) (hK : Keeps a0 s) : Keeps a0 (linkComesUp p s) := by
  unfold linkComesUp; (repeat' split) <;> simp_all +contextual (maxDischargeDepth := 30)
@[simp] theorem trainExpiry_keeps {a0 : State} (p : Nat) (s : State) (hK : Keeps a0 s) : Keeps a0 (trainExpiry p s) := by
  unfold trainExpiry; simp [hK]
@[simp] theorem alignExpiry_keeps {a0 : State} (p : Nat) (s : State) (hK : Keeps a0 s) : Keeps a0 (alignExpiry p s) := by
  unfold alignExpiry; simp [hK]
@[simp] theorem backoffOver_keeps {a0 : State} (p : Nat) (s : State) (hK : Keeps a0 s) : Keeps a0 (backoffOver p s) := by
  unfold backoffOver; simp [hK]
@[simp] theorem recoverIn_keeps {a0 : State} (l : Nat) (s : State) (hK : Keeps a0 s) : Keeps a0 (recoverIn l s) := by
  unfold recoverIn; simp +contextual (maxDischargeDepth := 30) [hK]
@[simp] theorem recoverOut_keeps {a0 : State} (l : Nat) (s : State) (hK : Keeps a0 s) : Keeps a0 (recoverOut l s) := by
  unfold recoverOut; simp +contextual (maxDischargeDepth := 30) [hK]
@[simp] theorem recoverLate_keeps {a0 : State} (l : Nat) (s : State) (hK : Keeps a0 s) : Keeps a0 (recoverLate l s) := by
  unfold recoverLate; (repeat' split) <;> simp_all +contextual (maxDischargeDepth := 30)
@[simp] theorem freezeLate_keeps {a0 : State} (l : Nat) (s : State) (hK : Keeps a0 s) : Keeps a0 (freezeLate l s) := by
  unfold freezeLate; (repeat' split) <;> simp_all +contextual (maxDischargeDepth := 30)
@[simp] theorem testAcquires_keeps {a0 : State} (l : Nat) (bitErrors : BitVec 64) (s : State) (hK : Keeps a0 s) :
    Keeps a0 (testAcquires l bitErrors s) := by
  unfold testAcquires; (repeat' split) <;> simp_all +contextual (maxDischargeDepth := 30)
@[simp] theorem serEnd_keeps {a0 : State} (l corrected symbols : Nat) (s : State) (hK : Keeps a0 s) : Keeps a0
    (serEnd l corrected symbols s) := by
  unfold serEnd; (repeat' split) <;> simp_all +contextual (maxDischargeDepth := 30)
@[simp] theorem State.retireLane_keeps {a0 : State} (s : State) (l : Nat) (hK : Keeps a0 s) : Keeps a0
    (State.retireLane s l) := by
  unfold State.retireLane; dsimp only; (repeat' split) <;> simp_all +contextual (maxDischargeDepth := 30)
@[simp] theorem flapHold_keeps {a0 : State} (p : Nat) (s : State) (hK : Keeps a0 s) : Keeps a0 (flapHold p s) := by
  unfold flapHold; (repeat' split) <;> simp_all +contextual (maxDischargeDepth := 30)
@[simp] theorem State.endHold_keeps {a0 : State} (s : State) (p : Nat) (hK : Keeps a0 s) : Keeps a0 (State.endHold s p) := by
  unfold State.endHold; simp [hK]
@[simp] theorem holdExpiry_keeps {a0 : State} (p : Nat) (s : State) (hK : Keeps a0 s) : Keeps a0 (holdExpiry p s) := by
  unfold holdExpiry; simp [hK]
@[simp] theorem laneCfgAct_keeps {a0 : State} (h : Handle) (idx : BitVec 3) (rxInv txInv ctl : Bool) (cPre cMain
    cPost : BitVec 8) (timeout : BitVec 16) (s : State) (hK : Keeps a0 s) : KeepsR a0 (laneCfgAct h idx rxInv txInv
    ctl cPre cMain cPost timeout s) := by
  unfold laneCfgAct; simp +contextual (maxDischargeDepth := 30) [hK]
@[simp] theorem adaptAct_keeps {a0 : State} (h : Handle) (idx : BitVec 3) (action : BitVec 2) (s : State) (hK : Keeps
    a0 s) : KeepsR a0 (adaptAct h idx action s) := by
  unfold adaptAct; dsimp only; (repeat' split) <;> simp_all +contextual (maxDischargeDepth := 30)
@[simp] theorem retireClear_keeps {a0 : State} (h : Handle) (idx : BitVec 3) (s : State) (hK : Keeps a0 s) : Keeps a0
    (retireClear h idx s) := by
  unfold retireClear; simp +contextual (maxDischargeDepth := 30) [hK]
@[simp] theorem serCfg_keeps {a0 : State} (p : Nat) (window : BitVec 14) (thresh : BitVec 24) (s : State) (hK : Keeps
    a0 s) : Keeps a0 (serCfg p window thresh s) := by
  unfold serCfg; (repeat' split) <;> simp_all +contextual (maxDischargeDepth := 30)
@[simp] theorem laneTestAct_keeps {a0 : State} (h : Handle) (idx : BitVec 3) (start : Bool) (t : LaneTest) (s :
    State) (hK : Keeps a0 s) : KeepsR a0 (laneTestAct h idx start t s) := by
  unfold laneTestAct; dsimp only; (repeat' split) <;> simp_all +contextual (maxDischargeDepth := 30)
@[simp] theorem eyeStartAct_keeps {a0 : State} (queue : QueueNo) (h : Handle) (idx : BitVec 3) (p : BitVec 256) (s :
    State) (hK : Keeps a0 s) : KeepsR a0 (eyeStartAct queue h idx p s) := by
  unfold eyeStartAct; dsimp only; (repeat' split) <;> simp_all +contextual (maxDischargeDepth := 30)
@[simp] theorem eyeStatusAct_keeps {a0 : State} (h : Handle) (id : BitVec 16) (s : State) (hK : Keeps a0 s) : KeepsR
    a0 (eyeStatusAct h id s) := by
  unfold eyeStatusAct; (repeat' split) <;> simp_all +contextual (maxDischargeDepth := 30)
@[simp] theorem eyeAbortAct_keeps {a0 : State} (h : Handle) (id : BitVec 16) (s : State) (hK : Keeps a0 s) : KeepsR
    a0 (eyeAbortAct h id s) := by
  unfold eyeAbortAct; (repeat' split) <;> simp_all +contextual (maxDischargeDepth := 30)
@[simp] theorem eyePoint_keeps {a0 : State} (l errors compared : Nat) (s : State) (hK : Keeps a0 s) : Keeps a0
    (eyePoint l errors compared s) := by
  unfold eyePoint; (repeat' split) <;> simp_all +contextual (maxDischargeDepth := 30)

end Sys2Proof.Machine
end

