-- ==== Sys2Proof/Laws/KeepsTables.lean ====
section
/-! SUPPORT. What leaves the command queue, the mode and the soundness of the state alone: the tables, the time base, the rule versions and lookups. -/

set_option linter.unusedSimpArgs false

namespace Sys2Proof.Machine

@[simp] theorem State.modTables_keeps {a0 : State} (s : State) (f : TableState → TableState) (hK : Keeps a0 s) :
    Keeps a0 (State.modTables s f) := by
  unfold State.modTables; simp [hK]
@[simp] theorem State.stashLevel_keeps {a0 : State} (s : State) (hK : Keeps a0 s) : Keeps a0 (State.stashLevel s) := by
  unfold State.stashLevel; simp +contextual (maxDischargeDepth := 30) [hK]
@[simp] theorem State.setHost_keeps {a0 : State} (s : State) (loc : Nat) (x : HostSlot) (hK : Keeps a0 s) : Keeps a0
    (State.setHost s loc x) := by
  unfold State.setHost; simp [hK]
@[simp] theorem State.clearHost_keeps {a0 : State} (s : State) (loc : Nat) (hK : Keeps a0 s) : Keeps a0
    (State.clearHost s loc) := by
  unfold State.clearHost; simp [hK]
@[simp] theorem State.modHost_keeps {a0 : State} (s : State) (loc : Nat) (f : HostSlot → HostSlot) (hK : Keeps a0 s)
    : Keeps a0 (State.modHost s loc f) := by
  unfold State.modHost; simp [hK]
@[simp] theorem State.dropEntry_keeps {a0 : State} (s : State) (loc : Nat) (hK : Keeps a0 s) : Keeps a0
    (State.dropEntry s loc) := by
  unfold State.dropEntry; (repeat' split) <;> simp_all +contextual (maxDischargeDepth := 30)
@[simp] theorem State.relocate_keeps {a0 : State} (s : State) (src dst : Nat) (hK : Keeps a0 s) : Keeps a0
    (State.relocate s src dst) := by
  unfold State.relocate; (repeat' split) <;> simp_all +contextual (maxDischargeDepth := 30)
@[simp] theorem State.runChain_keeps {a : State} (l : List (Nat × Nat)) : ∀ (s : State), Keeps a s → Keeps a (s.runChain l) := by
  induction l with
  | nil => intro s hK; exact hK
  | cons x l ih => intro s hK; unfold State.runChain; split <;> simp_all (maxDischargeDepth := 30)
@[simp] theorem State.settleStash_keeps {a : State} (s : State) (hK : Keeps a s) : Keeps a (State.settleStash s) := by
  unfold State.settleStash
  refine State.stashLevel_keeps _ (Keeps.nats _ _ hK fun x hx n => ?_)
  (repeat' split) <;> simp_all (maxDischargeDepth := 30)
@[simp] theorem State.place_keeps {a0 : State} (s : State) (loc : Nat) (head : HostSlot) (tail : BitVec 128) (hK :
    Keeps a0 s) : Keeps a0 (State.place s loc head tail) := by
  unfold State.place; simp +contextual (maxDischargeDepth := 30) [hK]
@[simp] theorem State.insertHost_keeps {a : State} (s : State) (k : HKey) (head : HostSlot) (tail : BitVec 128) (hK : Keeps a s) :
    Keeps a (State.insertHost s k head tail).1 := by
  unfold State.insertHost
  dsimp only
  (repeat' split) <;> simp (maxDischargeDepth := 30) [hK]
@[simp] theorem State.removeHost_keeps {a0 : State} (s : State) (loc : Nat) (hK : Keeps a0 s) : Keeps a0
    (State.removeHost s loc) := by
  unfold State.removeHost; simp [hK]
@[simp] theorem State.flushHost_keeps {a0 : State} (s : State) (p vlan : Nat) (withStatic : Bool) (hK : Keeps a0 s) :
    Keeps a0 (State.flushHost s p vlan withStatic).1 := by
  unfold State.flushHost; simp +contextual (maxDischargeDepth := 30) [hK]
@[simp] theorem hostAddAct_keeps {a : State} (e : BitVec 256) (s : State) (hK : Keeps a s) : KeepsR a (hostAddAct e s) := by
  unfold hostAddAct
  dsimp only
  have h1 := State.insertHost_keeps s (entryKey e) { entry := e.setWidth 128, hit := if bitAt (e.setWidth 128) 122 = true then 0 else hitAll s }
    (BitVec.ofNat 128 (fld e 255 128)) hK
  split
  next t l e => rw [e] at h1; simpa using h1
  next t e => simp [hK]
@[simp] theorem hostDeleteAct_keeps {a0 : State} (key : BitVec 192) (s : State) (hK : Keeps a0 s) : KeepsR a0
    (hostDeleteAct key s) := by
  unfold hostDeleteAct; (repeat' split) <;> simp_all +contextual (maxDischargeDepth := 30)
@[simp] theorem State.setLpm_keeps {a0 : State} (s : State) (v6 : Bool) (t : Tbl LpmRoute) (hK : Keeps a0 s) : Keeps
    a0 (State.setLpm s v6 t) := by
  unfold State.setLpm; simp [hK]
@[simp] theorem lpmAddAct_keeps {a0 : State} (v6 : Bool) (key : BitVec 136) (res : BitVec 18) (s : State) (hK : Keeps
    a0 s) : KeepsR a0 (lpmAddAct v6 key res s) := by
  unfold lpmAddAct; dsimp only; (repeat' split) <;> simp_all +contextual (maxDischargeDepth := 30)
@[simp] theorem lpmDelAct_keeps {a0 : State} (v6 : Bool) (key : BitVec 136) (s : State) (hK : Keeps a0 s) : KeepsR a0
    (lpmDelAct v6 key s) := by
  unfold lpmDelAct; dsimp only; (repeat' split) <;> simp_all +contextual (maxDischargeDepth := 30)
@[simp] theorem State.setLearn_keeps {a0 : State} (s : State) (v : BitVec 64) (hK : Keeps a0 s) : Keeps a0
    (State.setLearn s v) := by
  unfold State.setLearn; simp +contextual (maxDischargeDepth := 30) [hK]
@[simp] theorem State.postLearn_keeps {a0 : State} (s : State) (k : LearnKind) (vlan mac old new : Nat) (hK : Keeps
    a0 s) : Keeps a0 (State.postLearn s k vlan mac old new) := by
  unfold State.postLearn; simp [hK]
@[simp] theorem State.learnNew_keeps {a : State} (s : State) (q : Nat) (r : LearnReq) (hK : Keeps a s) : Keeps a (State.learnNew s q r) := by
  unfold State.learnNew
  dsimp only
  have h1 := State.insertHost_keeps s { typ := 1, val := r.vlan.toNat * 2 ^ 48 + r.mac.toNat }
    { entry := l2Entry r.vlan.toNat r.mac.toNat r.port.toNat, hit := hitAll s } 0 hK
  split
  · simp [hK]
  · split
    next t l e => rw [e] at h1; simp_all (maxDischargeDepth := 30)
    next t e => rw [e] at h1; simp_all (maxDischargeDepth := 30)
@[simp] theorem State.learnMove_keeps {a0 : State} (s : State) (q loc : Nat) (x : HostSlot) (r : LearnReq) (hK :
    Keeps a0 s) : Keeps a0 (State.learnMove s q loc x r) := by
  unfold State.learnMove; simp +contextual (maxDischargeDepth := 30) [hK]
@[simp] theorem serveLearn_keeps {a0 : State} (q : Nat) (s : State) (hK : Keeps a0 s) : Keeps a0 (serveLearn q s) := by
  unfold serveLearn; dsimp only; (repeat' split) <;> simp_all +contextual (maxDischargeDepth := 30)
@[simp] theorem moveBoundary_keeps {a : State} (s : State) (hK : Keeps a s) : Keeps a (moveBoundary s) := by
  unfold moveBoundary
  generalize windowDue s = w
  cases w with
  | none => exact hK
  | some mark =>
    dsimp only
    split
    · exact hK
    · refine Keeps.list' _ _ (by simp [hK]) fun x hx d => ?_
      (repeat' split) <;> simp (maxDischargeDepth := 30) [hx]
@[simp] theorem ageAll_keeps {a0 : State} (s : State) (hK : Keeps a0 s) : Keeps a0 (ageAll s) := by
  unfold ageAll; (repeat' split) <;> simp_all +contextual (maxDischargeDepth := 30)
@[simp] theorem tawAcl_keeps {a0 : State} (t : Nat) (del : Bool) (k : Nat) (v : BitVec 512) (s : State) (hK : Keeps
    a0 s) : Keeps a0 (tawAcl t del k v s).1 := by
  unfold tawAcl; (repeat' split) <;> simp_all +contextual (maxDischargeDepth := 30)
@[simp] theorem State.writePolicer_keeps {a0 : State} (s : State) (i : Nat) (e : BitVec 256) (hK : Keeps a0 s) :
    Keeps a0 (State.writePolicer s i e) := by
  unfold State.writePolicer; simp [hK]
@[simp] theorem State.writeShaper_keeps {a0 : State} (s : State) (i : Nat) (e : BitVec 128) (hK : Keeps a0 s) : Keeps
    a0 (State.writeShaper s i e) := by
  unfold State.writeShaper; simp +contextual (maxDischargeDepth := 30) [hK]
@[simp] theorem State.writeTable_keeps {a0 : State} (s : State) (t copy i : Nat) (v : BitVec 512) (hK : Keeps a0 s) :
    Keeps a0 (State.writeTable s t copy i v) := by
  unfold State.writeTable; simp +contextual (maxDischargeDepth := 30) [hK]
@[simp] theorem tawRun_keeps {a0 : State} (cmd : BitVec 64) (s : State) (hK : Keeps a0 s) : Keeps a0 (tawRun cmd s).1 := by
  unfold tawRun; simp +contextual (maxDischargeDepth := 30) [hK]
@[simp] theorem tawGo_keeps {a0 : State} (cmd : BitVec 64) (overruns : Nat) (s : State) (hK : Keeps a0 s) : Keeps a0
    (tawGo cmd overruns s) := by
  unfold tawGo; simp +contextual (maxDischargeDepth := 30) [hK]
@[simp] theorem State.loseEntry_keeps {a0 : State} (s : State) (t copy loc : Nat) (hK : Keeps a0 s) : Keeps a0
    (State.loseEntry s t copy loc) := by
  unfold State.loseEntry; (repeat' split) <;> simp_all +contextual (maxDischargeDepth := 30)
@[simp] theorem State.losePath_keeps {a0 : State} (s : State) (loc : Nat) (hK : Keeps a0 s) : Keeps a0
    (State.losePath s loc) := by
  unfold State.losePath; simp [hK]
@[simp] theorem repairParity_keeps {a0 : State} (t copy loc : Nat) (good : Bool) (s : State) (hK : Keeps a0 s) :
    Keeps a0 (repairParity t copy loc good s) := by
  unfold repairParity; simp +contextual (maxDischargeDepth := 30) [hK]

@[simp] theorem State.postTime_keeps {a0 : State} (s : State) (kind old new : Nat) (time : TimeVal) (value : BitVec
    64) (hK : Keeps a0 s) : Keeps a0 (State.postTime s kind old new time value) := by
  unfold State.postTime; simp [hK]
@[simp] theorem State.modTime_keeps {a0 : State} (s : State) (f : TimeState → TimeState) (hK : Keeps a0 s) : Keeps a0
    (State.modTime s f) := by
  unfold State.modTime; simp [hK]
@[simp] theorem State.requality_keeps {a0 : State} (s : State) (hK : Keeps a0 s) : Keeps a0 (State.requality s) := by
  unfold State.requality; simp +contextual (maxDischargeDepth := 30) [hK]
@[simp] theorem State.timeReject_keeps {a0 : State} (s : State) (offset : Nat) (hK : Keeps a0 s) : Keeps a0
    (State.timeReject s offset) := by
  unfold State.timeReject; simp [hK]
@[simp] theorem State.stepTo_keeps {a0 : State} (s : State) (dev : Nat) (hK : Keeps a0 s) : Keeps a0 (State.stepTo s
    dev) := by
  unfold State.stepTo; simp +contextual (maxDischargeDepth := 30) [hK]
@[simp] theorem State.firstSet_keeps {a0 : State} (s : State) (dev : Nat) (hK : Keeps a0 s) : Keeps a0
    (State.firstSet s dev) := by
  unfold State.firstSet; dsimp only; (repeat' split) <;> simp_all +contextual (maxDischargeDepth := 30)
@[simp] theorem State.applyWrite_keeps {a0 : State} (s : State) (w : TimeWrite) (hK : Keeps a0 s) : Keeps a0
    (State.applyWrite s w) := by
  unfold State.applyWrite; (repeat' split) <;> simp_all +contextual (maxDischargeDepth := 30)
@[simp] theorem ticks_keeps {a0 : State} (n : Nat) (s : State) (hK : Keeps a0 s) : Keeps a0 (ticks n s) := by
  unfold ticks; simp +contextual (maxDischargeDepth := 30) [hK]
@[simp] theorem State.skewed_keeps {a0 : State} (s : State) (slips : List SliceSlip) (hK : Keeps a0 s) : Keeps a0
    (State.skewed s slips) := by
  unfold State.skewed; simp +contextual (maxDischargeDepth := 30) [hK]
@[simp] theorem State.queueWrite_keeps {a0 : State} (s : State) (w : TimeWrite) (hK : Keeps a0 s) : Keeps a0
    (State.queueWrite s w) := by
  unfold State.queueWrite; simp [hK]
@[simp] theorem writeInc_keeps {a0 : State} (v : BitVec 64) (s : State) (hK : Keeps a0 s) : Keeps a0 (writeInc v s) := by
  unfold writeInc; simp +contextual (maxDischargeDepth := 30) [hK]
@[simp] theorem writeAdj_keeps {a0 : State} (v : BitVec 64) (s : State) (hK : Keeps a0 s) : Keeps a0 (writeAdj v s) := by
  unfold writeAdj; simp +contextual (maxDischargeDepth := 30) [hK]
@[simp] theorem writeSet_keeps {a0 : State} (sec ns : BitVec 64) (s : State) (hK : Keeps a0 s) : Keeps a0 (writeSet
    sec ns s) := by
  unfold writeSet; simp +contextual (maxDischargeDepth := 30) [hK]
@[simp] theorem writeTimeCtl_keeps {a0 : State} (v : BitVec 64) (s : State) (hK : Keeps a0 s) : Keeps a0
    (writeTimeCtl v s) := by
  unfold writeTimeCtl; simp +contextual (maxDischargeDepth := 30) [hK]
@[simp] theorem State.timeSettled_keeps {a0 : State} (s : State) (hK : Keeps a0 s) : Keeps a0 (State.timeSettled s)
    := by
  unfold State.timeSettled; simp +contextual (maxDischargeDepth := 30) [hK]
@[simp] theorem latchNow_keeps {a0 : State} (s : State) (hK : Keeps a0 s) : Keeps a0 (latchNow s) := by
  unfold latchNow; simp +contextual (maxDischargeDepth := 30) [hK]
@[simp] theorem latchPps_keeps {a0 : State} (s : State) (hK : Keeps a0 s) : Keeps a0 (latchPps s) := by
  unfold latchPps; simp +contextual (maxDischargeDepth := 30) [hK]
@[simp] theorem releasePps_keeps {a0 : State} (s : State) (hK : Keeps a0 s) : Keeps a0 (releasePps s) := by
  unfold releasePps; simp +contextual (maxDischargeDepth := 30) [hK]
@[simp] theorem State.slip_keeps {a0 : State} (s : State) (sl : Nat) (hK : Keeps a0 s) : Keeps a0 (State.slip s sl) := by
  unfold State.slip; simp +contextual (maxDischargeDepth := 30) [hK]
@[simp] theorem State.takeCheckpoint_keeps {a0 : State} (s : State) (sl : Nat) (hK : Keeps a0 s) : Keeps a0
    (State.takeCheckpoint s sl) := by
  unfold State.takeCheckpoint; simp +contextual (maxDischargeDepth := 30) [hK]
@[simp] theorem timeCp_keeps {a0 : State} (slips : List SliceSlip) (s : State) (hK : Keeps a0 s) : Keeps a0 (timeCp slips s) := by
  unfold timeCp; simp +contextual (maxDischargeDepth := 30) [hK]
@[simp] theorem ppsEdge_keeps {a0 : State} (quarter : BitVec 3) (s : State) (hK : Keeps a0 s) : Keeps a0 (ppsEdge
    quarter s) := by
  unfold ppsEdge; simp +contextual (maxDischargeDepth := 30) [hK]
@[simp] theorem ppsTimeout_keeps {a0 : State} (s : State) (hK : Keeps a0 s) : Keeps a0 (ppsTimeout s) := by
  unfold ppsTimeout; simp +contextual (maxDischargeDepth := 30) [hK]
@[simp] theorem ppsRise_keeps {a0 : State} (s : State) (hK : Keeps a0 s) : Keeps a0 (ppsRise s) := by
  unfold ppsRise; simp [hK]
@[simp] theorem ppsFall_keeps {a0 : State} (s : State) (hK : Keeps a0 s) : Keeps a0 (ppsFall s) := by
  unfold ppsFall; simp [hK]
@[simp] theorem refLocks_keeps {a0 : State} (s : State) (hK : Keeps a0 s) : Keeps a0 (refLocks s) := by
  unfold refLocks; simp +contextual (maxDischargeDepth := 30) [hK]
@[simp] theorem refLost_keeps {a0 : State} (s : State) (hK : Keeps a0 s) : Keeps a0 (refLost s) := by
  unfold refLost; simp +contextual (maxDischargeDepth := 30) [hK]
@[simp] theorem holdExpired_keeps {a0 : State} (s : State) (hK : Keeps a0 s) : Keeps a0 (holdExpired s) := by
  unfold holdExpired; simp [hK]
@[simp] theorem calibrate_keeps {a0 : State} (p : Nat) (dRx dTx bound : BitVec 32) (s : State) (hK : Keeps a0 s) :
    Keeps a0 (calibrate p dRx dTx bound s) := by
  unfold calibrate; simp [hK]
@[simp] theorem tsCal_keeps {a0 : State} (p : Nat) (s : State) (hK : Keeps a0 s) : KeepsR a0 (tsCal p s) := by
  unfold tsCal; (repeat' split) <;> simp_all +contextual (maxDischargeDepth := 30)

@[simp] theorem State.modVers_keeps {a0 : State} (s : State) (f : VerState → VerState) (hK : Keeps a0 s) : Keeps a0
    (State.modVers s f) := by
  unfold State.modVers; simp [hK]
@[simp] theorem State.setSlot_keeps {a0 : State} (s : State) (b : Bool) (v : VSlot) (hK : Keeps a0 s) : Keeps a0
    (State.setSlot s b v) := by
  unfold State.setSlot; simp [hK]
@[simp] theorem State.setStage_keeps {a0 : State} (s : State) (g : Option Stage) (hK : Keeps a0 s) : Keeps a0
    (State.setStage s g) := by
  unfold State.setStage; simp [hK]
@[simp] theorem State.setCommit_keeps {a0 : State} (s : State) (j : Option CommitJob) (hK : Keeps a0 s) : Keeps a0
    (State.setCommit s j) := by
  unfold State.setCommit; simp [hK]
@[simp] theorem openSet_keeps {a0 : State} (s : State) (hK : Keeps a0 s) : KeepsR a0 (openSet s) := by
  unfold openSet; (repeat' split) <;> simp_all +contextual (maxDischargeDepth := 30)
theorem onStage_keeps {a : State} (s : State) (f : Stage → Res) (hf : ∀ g, KeepsR a (f g)) (hK : Keeps a s) : KeepsR a (onStage s f) := by
  unfold onStage; (repeat' split) <;> first | exact hK | exact hf _
@[simp] theorem abortSet_keeps {a : State} (s : State) (hK : Keeps a s) : KeepsR a (abortSet s) :=
  onStage_keeps s _ (fun g => by simp [hK]) hK
@[simp] theorem setProfile_keeps {a : State} (n : Nat) (l : List Extract) (s : State) (hK : Keeps a s) : KeepsR a (setProfile n l s) :=
  onStage_keeps s _ (fun g => by (repeat' split) <;> simp [hK]) hK
@[simp] theorem setNode_keeps {a : State} (d : BitVec 128) (s : State) (hK : Keeps a s) : KeepsR a (setNode d s) :=
  onStage_keeps s _ (fun g => by split <;> simp [hK]) hK
@[simp] theorem State.setStore_keeps {a0 : State} (s : State) (store : Nat) (bank : Bool) (img : List Byte) (hK :
    Keeps a0 s) : Keeps a0 (State.setStore s store bank img) := by
  unfold State.setStore; simp [hK]
@[simp] theorem stageLoad_keeps {a : State} (mask : BitVec 10) (data : HostData) (s : State) (hK : Keeps a s) :
    KeepsR a (stageLoad mask data s) := by
  unfold stageLoad
  split
  · simp [hK]
  · exact onStage_keeps s _ (fun g => by dsimp only; (repeat' split) <;> simp +contextual (maxDischargeDepth := 30) [hK]) hK
@[simp] theorem repairStore_keeps {a0 : State} (source : BitVec 16) (bank : BitVec 1) (word : BitVec 14) (good :
    Bool) (s : State) (hK : Keeps a0 s) : Keeps a0 (repairStore source bank word good s) := by
  unfold repairStore; (repeat' split) <;> simp_all +contextual (maxDischargeDepth := 30)
@[simp] theorem State.build_keeps {a0 : State} (s : State) (hK : Keeps a0 s) : Keeps a0 (State.build s) := by
  unfold State.build; (repeat' split) <;> simp_all +contextual (maxDischargeDepth := 30)
@[simp] theorem State.startBuild_keeps {a0 : State} (s : State) (j : CommitJob) (hK : Keeps a0 s) : Keeps a0
    (State.startBuild s j) := by
  unfold State.startBuild; simp +contextual (maxDischargeDepth := 30) [hK]
@[simp] theorem State.dropCommitVotes_keeps {a0 : State} (s : State) (j : CommitJob) (hK : Keeps a0 s) : Keeps a0
    (State.dropCommitVotes s j) := by
  unfold State.dropCommitVotes; simp +contextual (maxDischargeDepth := 30) [hK]
@[simp] theorem commitSet_keeps {a : State} (queue : QueueNo) (index : BitVec 16) (wait : Bool) (limit : Nat) (s : State) (hK : Keeps a s) :
    KeepsR a (commitSet queue index wait limit s) :=
  onStage_keeps s _ (fun g => by dsimp only; (repeat' split) <;> simp [hK]) hK
@[simp] theorem resumeCommit_keeps {a0 : State} (s : State) (hK : Keeps a0 s) : Keeps a0 (resumeCommit s) := by
  unfold resumeCommit; (repeat' split) <;> simp_all +contextual (maxDischargeDepth := 30)
@[simp] theorem limitCommit_keeps {a0 : State} (s : State) (hK : Keeps a0 s) : Keeps a0 (limitCommit s) := by
  unfold limitCommit; (repeat' split) <;> simp_all +contextual (maxDischargeDepth := 30)
@[simp] theorem switchVersions_keeps {a0 : State} (s : State) (hK : Keeps a0 s) : Keeps a0 (switchVersions s) := by
  unfold switchVersions; (repeat' split) <;> simp_all +contextual (maxDischargeDepth := 30)
@[simp] theorem drained_keeps {a0 : State} (s : State) (hK : Keeps a0 s) : Keeps a0 (drained s) := by
  unfold drained; (repeat' split) <;> simp_all +contextual (maxDischargeDepth := 30)
@[simp] theorem drainSlow_keeps {a0 : State} (s : State) (hK : Keeps a0 s) : Keeps a0 (drainSlow s) := by
  unfold drainSlow; (repeat' split) <;> simp_all +contextual (maxDischargeDepth := 30)
@[simp] theorem State.initialVersion_keeps {a0 : State} (s : State) (hK : Keeps a0 s) : Keeps a0
    (State.initialVersion s) := by
  unfold State.initialVersion; simp [hK]
@[simp] theorem State.safeVersions_keeps {a0 : State} (s : State) (hK : Keeps a0 s) : Keeps a0 (State.safeVersions s) := by
  unfold State.safeVersions; (repeat' split) <;> simp_all +contextual (maxDischargeDepth := 30)
@[simp] theorem State.clearVersions_keeps {a0 : State} (s : State) (hK : Keeps a0 s) : Keeps a0 (State.clearVersions s) := by
  unfold State.clearVersions; simp [hK]

@[simp] theorem State.ucodeAbort_keeps {a0 : State} (s : State) (sl copy source mpc : Nat) (hK : Keeps a0 s) : Keeps
    a0 (State.ucodeAbort s sl copy source mpc) := by
  unfold State.ucodeAbort; simp +contextual (maxDischargeDepth := 30) [hK]
@[simp] theorem State.abandon_keeps {a0 : State} (s : State) (sl pipe store cause mpc : Nat) (hK : Keeps a0 s) :
    Keeps a0 (State.abandon s sl pipe store cause mpc) := by
  unfold State.abandon; simp +contextual (maxDischargeDepth := 30) [hK]
@[simp] theorem State.parityTrap_keeps {a0 : State} (s : State) (c : LookCtx) (hK : Keeps a0 s) : Keeps a0
    (State.parityTrap s c) := by
  unfold State.parityTrap; simp [hK]
@[simp] theorem State.readAt_keeps {a0 : State} (s : State) (c : LookCtx) (t loc : Nat) (hK : Keeps a0 s) : Keeps a0
    (State.readAt s c t loc).1 := by
  unfold State.readAt; simp [hK]
@[simp] theorem State.countRule_keeps {a0 : State} (s : State) (k : Nat) (hK : Keeps a0 s) : Keeps a0
    (State.countRule s k) := by
  unfold State.countRule; simp [hK]
@[simp] theorem State.police_keeps {a0 : State} (s : State) (c : LookCtx) (f : Frame) (hK : Keeps a0 s) : Keeps a0
    (State.police s c f).1 := by
  unfold State.police; dsimp only; (repeat' split) <;> simp_all +contextual (maxDischargeDepth := 30)
@[simp] theorem State.hostLook_keeps {a0 : State} (s : State) (c : LookCtx) (k : HKey) (hK : Keeps a0 s) : Keeps a0
    (State.hostLook s c k).1 := by
  unfold State.hostLook; dsimp only; (repeat' split) <;> simp_all +contextual (maxDischargeDepth := 30)
@[simp] theorem State.lpmLook_keeps {a : State} (s : State) (c : LookCtx) (v6 : Bool) (addr : Nat) (hK : Keeps a s) :
    Keeps a (State.lpmLook s c v6 addr).1 := by
  unfold State.lpmLook
  extract_lets bits found bad s1 slot
  have h1 : Keeps a s1 := by simp (maxDischargeDepth := 30) [s1, hK]
  split <;> simp [h1]
@[simp] theorem State.askLearn_keeps {a0 : State} (s : State) (vlan mac p : Nat) (hK : Keeps a0 s) : Keeps a0
    (State.askLearn s vlan mac p) := by
  unfold State.askLearn; simp [hK]
@[simp] theorem State.sourceLook_keeps {a0 : State} (s : State) (c : LookCtx) (p vlan mac : Nat) (hK : Keeps a0 s) :
    Keeps a0 (State.sourceLook s c p vlan mac).1 := by
  unfold State.sourceLook; dsimp only; (repeat' split) <;> simp_all +contextual (maxDischargeDepth := 30)
@[simp] theorem State.viaNexthop_keeps {a0 : State} (s : State) (c : LookCtx) (n : Nat) (hK : Keeps a0 s) : Keeps a0
    (State.viaNexthop s c n).1 := by
  unfold State.viaNexthop; simp [hK]
@[simp] theorem State.viaResult_keeps {a : State} (s : State) (c : LookCtx) (p kind index : Nat) (hK : Keeps a s) :
    Keeps a (State.viaResult s c p kind index).1 := by
  unfold State.viaResult
  split
  · simp [hK]
  · dsimp only; split <;> simp [hK]
  · simp [hK]
  · exact hK
@[simp] theorem State.route_keeps {a0 : State} (s : State) (c : LookCtx) (p : Nat) (x : Parse) (hK : Keeps a0 s) :
    Keeps a0 (State.route s c p x).1 := by
  unfold State.route; dsimp only; (repeat' split) <;> simp_all +contextual (maxDischargeDepth := 30)
@[simp] theorem State.viaGroup_keeps {a0 : State} (s : State) (c : LookCtx) (p g vlan : Nat) (hK : Keeps a0 s) :
    Keeps a0 (State.viaGroup s c p g vlan).1 := by
  unfold State.viaGroup; simp +contextual (maxDischargeDepth := 30) [hK]
@[simp] theorem State.bridge_keeps {a0 : State} (s : State) (c : LookCtx) (p vlan dmac : Nat) (hK : Keeps a0 s) :
    Keeps a0 (State.bridge s c p vlan dmac).1 := by
  unfold State.bridge; dsimp only; (repeat' split) <;> simp_all +contextual (maxDischargeDepth := 30)
@[simp] theorem State.entryStage_keeps {a0 : State} (s : State) (c : LookCtx) (p : Nat) (x : Parse) (early : Option
    Fate) (hK : Keeps a0 s) : Keeps a0 (State.entryStage s c p x early).1 := by
  unfold State.entryStage; dsimp only; (repeat' split) <;> simp_all +contextual (maxDischargeDepth := 30)
@[simp] theorem State.destination_keeps {a0 : State} (s : State) (c : LookCtx) (p : Nat) (x : Parse) (early : Option
    Fate) (hK : Keeps a0 s) : Keeps a0 (State.destination s c p x early).1 := by
  unfold State.destination; dsimp only; (repeat' split) <;> simp_all +contextual (maxDischargeDepth := 30)
@[simp] theorem State.before_keeps {a0 : State} (s : State) (c : LookCtx) (p : Nat) (x : Parse) (early : Option Fate)
    (steps : Nat) (hK : Keeps a0 s) : Keeps a0 (State.before s c p x early steps) := by
  unfold State.before; dsimp only; (repeat' split) <;> simp_all +contextual (maxDischargeDepth := 30)
@[simp] theorem State.forward_keeps {a0 : State} (s : State) (f : Frame) (d : Dest) (hK : Keeps a0 s) : Keeps a0
    (State.forward s f d) := by
  unfold State.forward; (repeat' split) <;> simp_all +contextual (maxDischargeDepth := 30)
@[simp] theorem State.modMcq_keeps {a0 : State} (s : State) (sl c : Nat) (f : Mcq → Mcq) (hK : Keeps a0 s) : Keeps a0
    (State.modMcq s sl c f) := by
  unfold State.modMcq; simp [hK]
@[simp] theorem State.setMcr_keeps {a0 : State} (s : State) (sl e c : Nat) (l : List Frame) (hK : Keeps a0 s) : Keeps
    a0 (State.setMcr s sl e c l) := by
  unfold State.setMcr; simp [hK]
@[simp] theorem State.splitCopy_keeps {a0 : State} (s : State) (sl : Nat) (f : Frame) (e : Nat) (hK : Keeps a0 s) :
    Keeps a0 (State.splitCopy s sl f e) := by
  unfold State.splitCopy; dsimp only; (repeat' split) <;> simp_all +contextual (maxDischargeDepth := 30)
@[simp] theorem State.mcPop_keeps {a0 : State} (s : State) (sl c : Nat) (hK : Keeps a0 s) : Keeps a0 (State.mcPop s
    sl c) := by
  unfold State.mcPop; (repeat' split) <;> simp_all +contextual (maxDischargeDepth := 30)
@[simp] theorem State.reachHead_keeps {a : State} (sl c n : Nat) : ∀ (s : State), Keeps a s → Keeps a (State.reachHead sl c n s) := by
  induction n with
  | zero => intro s hK; exact hK
  | succ n ih =>
    intro s hK; unfold State.reachHead
    split
    · simp [hK]
    · extract_lets blocked left s1
      have h1 : Keeps a s1 := Keeps.list _ _ (fun x hx d => by simp [hx]) hK
      split <;> simp_all (maxDischargeDepth := 30)
@[simp] theorem State.nextHead_keeps {a : State} (s : State) (sl c : Nat) (hK : Keeps a s) : Keeps a (State.nextHead s sl c) := by
  unfold State.nextHead; simp [hK]
@[simp] theorem State.mcEnqueue_keeps {a0 : State} (s : State) (f : Frame) (hK : Keeps a0 s) : Keeps a0
    (State.mcEnqueue s f) := by
  unfold State.mcEnqueue; simp +contextual (maxDischargeDepth := 30) [hK]
@[simp] theorem State.admitMulti_keeps {a : State} (s : State) (f : Frame) (hK : Keeps a s) : Keeps a (State.admitMulti s f) := by
  unfold State.admitMulti
  extract_lets n acc held g s1
  have h1 : Keeps a s1 := by simp [s1, hK]
  have h2 := trueUp_keeps s1 g n h1
  (repeat' split) <;> first
    | (simp (maxDischargeDepth := 30) [hK, h1]; done)
    | (simp (maxDischargeDepth := 30) [h2 _ (by assumption)]; done)
@[simp] theorem State.multicast_keeps {a0 : State} (s : State) (f : Frame) (g : BitVec 16) (vlan : BitVec 12) (hK :
    Keeps a0 s) : Keeps a0 (State.multicast s f g vlan) := by
  unfold State.multicast; simp [hK]
@[simp] theorem State.punt_keeps {a0 : State} (s : State) (x : Port) (f : Frame) (reason : Nat) (hK : Keeps a0 s) :
    Keeps a0 (State.punt s x f reason) := by
  unfold State.punt; simp +contextual (maxDischargeDepth := 30) [hK]
@[simp] theorem State.missPath_keeps {a0 : State} (s : State) (f : Frame) (reason : Nat) (hK : Keeps a0 s) : Keeps a0
    (State.missPath s f reason) := by
  unfold State.missPath; (repeat' split) <;> simp_all +contextual (maxDischargeDepth := 30)
@[simp] theorem State.sampleRx_keeps {a0 : State} (s : State) (f : Frame) (outPort : Nat) (hK : Keeps a0 s) : Keeps
    a0 (State.sampleRx s f outPort) := by
  unfold State.sampleRx; (repeat' split) <;> simp_all +contextual (maxDischargeDepth := 30)
@[simp] theorem State.ptpTrap_keeps {a0 : State} (s : State) (f : Frame) (hK : Keeps a0 s) : Keeps a0 (State.ptpTrap
    s f) := by
  unfold State.ptpTrap; (repeat' split) <;> simp_all +contextual (maxDischargeDepth := 30)
@[simp] theorem State.carryOut_keeps {a0 : State} (s : State) (f : Frame) (fate : Fate) (hK : Keeps a0 s) : Keeps a0
    (State.carryOut s f fate) := by
  unfold State.carryOut; (repeat' split) <;> simp_all +contextual (maxDischargeDepth := 30)
@[simp] theorem State.endOfPipe_keeps {a0 : State} (s : State) (f : Frame) (orig : List Byte) (fate : Fate) (hK :
    Keeps a0 s) : Keeps a0 (State.endOfPipe s f orig fate) := by
  unfold State.endOfPipe; simp +contextual (maxDischargeDepth := 30) [hK]
@[simp] theorem State.endTracked_keeps {a0 : State} (s : State) (f : Frame) (orig : List Byte) (fate : Fate) (hK :
    Keeps a0 s) : Keeps a0 (State.endTracked s f orig fate) := by
  unfold State.endTracked; simp +contextual (maxDischargeDepth := 30) [hK]

end Sys2Proof.Machine
end

