-- ==== Sys2Proof/Laws/KeepsFlows.lean ====
section
/-! SUPPORT. What leaves the command queue, the mode and the soundness of the state alone: Infuser, pause, the receive pipe and the commands on tables, flows and ports. -/

set_option linter.unusedSimpArgs false

namespace Sys2Proof.Machine

@[simp] theorem State.modPart_keeps {a0 : State} (s : State) (p : Nat) (f : Partition → Partition) (hK : Keeps a0 s)
    : Keeps a0 (State.modPart s p f) := by
  unfold State.modPart; simp [hK]
@[simp] theorem State.pendMark_keeps {a0 : State} (s : State) (q : Nat) (hK : Keeps a0 s) : Keeps a0 (State.pendMark
    s q) := by
  unfold State.pendMark; simp [hK]
@[simp] theorem State.countPart_keeps {a0 : State} (s : State) (p slot : Nat) (hK : Keeps a0 s) : Keeps a0
    (State.countPart s p slot) := by
  unfold State.countPart; simp [hK]
@[simp] theorem State.infuserTrap_keeps {a0 : State} (s : State) (q cause : Nat) (hK : Keeps a0 s) : Keeps a0
    (State.infuserTrap s q cause) := by
  unfold State.infuserTrap; simp [hK]
@[simp] theorem State.leaveInfuser_keeps {a0 : State} (s : State) (h : FlowHdr) (f : Frame) (fate : Fate) (hK : Keeps
    a0 s) : Keeps a0 (State.leaveInfuser s h f fate) := by
  unfold State.leaveInfuser; simp [hK]
@[simp] theorem State.dropHdr_keeps {a0 : State} (s : State) (h : FlowHdr) (slot : Nat) (hK : Keeps a0 s) : Keeps a0
    (State.dropHdr s h slot) := by
  unfold State.dropHdr; simp [hK]
@[simp] theorem State.dropUnder_keeps {a0 : State} (s : State) (h : FlowHdr) (r : BitVec 1024) (hK : Keeps a0 s) :
    Keeps a0 (State.dropUnder s h r) := by
  unfold State.dropUnder; simp +contextual (maxDischargeDepth := 30) [hK]
@[simp] theorem State.memberRead_keeps {a0 : State} (s : State) (h : FlowHdr) (g : BitVec 12) (m q : Nat) (hK :
    Keeps a0 s) : Keeps a0 (State.memberRead s h g m q) := by
  unfold State.memberRead; simp +contextual (maxDischargeDepth := 30) [hK]
@[simp] theorem State.leavePlain_keeps {a0 : State} (s : State) (h : FlowHdr) (hK : Keeps a0 s) : Keeps a0
    (State.leavePlain s h) := by
  unfold State.leavePlain; (repeat' split) <;> simp_all +contextual (maxDischargeDepth := 30)
@[simp] theorem State.noState_keeps {a0 : State} (s : State) (h : FlowHdr) (hK : Keeps a0 s) : Keeps a0
    (State.noState s h) := by
  unfold State.noState; simp +contextual (maxDischargeDepth := 30) [hK]
@[simp] theorem State.startFetch_keeps {a0 : State} (s : State) (h : FlowHdr) (loc : Nat) (install : Bool) (hK :
    Keeps a0 s) : Keeps a0 (State.startFetch s h loc install) := by
  unfold State.startFetch; simp +contextual (maxDischargeDepth := 30) [hK]
@[simp] theorem State.follow_keeps {a0 : State} (s : State) (h : FlowHdr) (f : Fetch) (hK : Keeps a0 s) : Keeps a0
    (State.follow s h f) := by
  unfold State.follow; simp +contextual (maxDischargeDepth := 30) [hK]
@[simp] theorem State.needRecord_keeps {a0 : State} (s : State) (h : FlowHdr) (loc : Nat) (hK : Keeps a0 s) : Keeps
    a0 (State.needRecord s h loc) := by
  unfold State.needRecord; (repeat' split) <;> simp_all +contextual (maxDischargeDepth := 30)
@[simp] theorem State.clearFlow_keeps {a0 : State} (s : State) (loc : Nat) (hK : Keeps a0 s) : Keeps a0
    (State.clearFlow s loc) := by
  unfold State.clearFlow; simp [hK]
@[simp] theorem State.dropFlow_keeps {a0 : State} (s : State) (loc : Nat) (hK : Keeps a0 s) : Keeps a0
    (State.dropFlow s loc) := by
  unfold State.dropFlow; (repeat' split) <;> simp_all +contextual (maxDischargeDepth := 30)
@[simp] theorem State.postFlow_keeps {a0 : State} (s : State) (kind prof id loc : Nat) (totals : Nat × Nat) (hK :
    Keeps a0 s) : Keeps a0 (State.postFlow s kind prof id loc totals) := by
  unfold State.postFlow; simp [hK]
@[simp] theorem State.loseFlow_keeps {a0 : State} (s : State) (loc kind : Nat) (hK : Keeps a0 s) : Keeps a0
    (State.loseFlow s loc kind) := by
  unfold State.loseFlow; (repeat' split) <;> simp_all +contextual (maxDischargeDepth := 30)
@[simp] theorem State.putFlow_keeps {a0 : State} (s : State) (loc : Nat) (fp : BitVec 8) (r : BitVec 1024) (hK :
    Keeps a0 s) : Keeps a0 (State.putFlow s loc fp r) := by
  unfold State.putFlow; simp [hK]
@[simp] theorem State.drawFlowId_keeps {a0 : State} (s : State) (q : Nat) (hK : Keeps a0 s) : Keeps a0
    (State.drawFlowId s q).1 := by
  unfold State.drawFlowId; simp +contextual (maxDischargeDepth := 30) [hK]
@[simp] theorem State.takePort_keeps {a0 : State} (s : State) (prof : Nat) (x : Xlate) (hK : Keeps a0 s) : Keeps a0
    (State.takePort s prof x) := by
  unfold State.takePort; simp [hK]
@[simp] theorem State.pinRead_keeps {a0 : State} (s : State) (h : FlowHdr) (p : BitVec 512) (r : BitVec 1024) (q :
    Nat) (hK : Keeps a0 s) : Keeps a0 (State.pinRead s h p r q) := by
  unfold State.pinRead; (repeat' split) <;> simp_all +contextual (maxDischargeDepth := 30)
@[simp] theorem State.passHdr_keeps {a0 : State} (s : State) (h : FlowHdr) (loc : Nat) (x : FlowSlot) (v : Option
    Via) (orig fresh : Bool) (hK : Keeps a0 s) : Keeps a0 (State.passHdr s h loc x v orig fresh) := by
  unfold State.passHdr; simp +contextual (maxDischargeDepth := 30) [hK]
theorem State.takeSpot_keeps {a : State} (s : State) (x : Spot) (hK : Keeps a s) : ∀ r, s.takeSpot x = some r → Keeps a r.1 := by
  intro r; cases x <;> simp only [State.takeSpot] <;> rintro ⟨⟩ <;> simp (maxDischargeDepth := 30) [hK]
theorem State.installToken_keeps {a : State} (s : State) (q : Nat) (hK : Keeps a s) : ∀ t, s.installToken q = some t → Keeps a t := by
  intro t; unfold State.installToken; dsimp only; split <;> rintro ⟨⟩; simp [hK]
/-- The same of the end of placing a record. -/
def KeepsP (a : State) : Placed → Prop
  | .done t _ => Keeps a t
  | .wait _ => True
  | .full => True
theorem State.putTwin_keeps {a : State} (s : State) (loc : Nat) (k : FKey) (x : Xlate) (o : Bool) (keep : Option Nat)
    (hK : Keeps a s) : KeepsP a (s.putTwin loc k x o keep) := by
  unfold State.putTwin
  split
  · trivial
  next y hy =>
    extract_lets fh p spot
    clear_value spot
    split
    · trivial
    · split
      · trivial
      next s1 m h1 =>
        have h := State.takeSpot_keeps s _ hK _ h1
        simp_all (maxDischargeDepth := 30) [KeepsP]
theorem State.installAt_keeps {a : State} (s : State) (h : FlowHdr) (prof st : Nat) (fh : BitVec 64) (spot : Spot)
    (x : Option Xlate) (hK : Keeps a s) : KeepsP a (s.installAt h prof st fh spot x) := by
  unfold State.installAt
  split
  · trivial
  next s1 loc h1 =>
    have k1 := State.takeSpot_keeps s _ hK _ h1
    extract_lets i s2
    have k2 : Keeps a s2 := by simp_all (maxDischargeDepth := 30) [s2, i]
    cases x with
    | none => exact k2
    | some t =>
      have k3 := State.putTwin_keeps s2 loc h.key t h.keyed.2 none k2
      dsimp only
      split
      next u l e =>
        rw [e] at k3
        split <;> simp_all [KeepsP]
      · exact k3
@[simp] theorem State.reinstall_keeps {a : State} (s : State) (h : FlowHdr) (loc : Nat) (x : FlowSlot) (v : Option Via)
    (hK : Keeps a s) : Keeps a (State.reinstall s h loc x v) := by
  unfold State.reinstall
  dsimp only
  split
  · simp [hK]
  next s1 h1 =>
    have k1 := State.installToken_keeps s _ hK _ h1
    split <;> simp (maxDischargeDepth := 30) [k1]
@[simp] theorem State.program_keeps {a0 : State} (s : State) (h : FlowHdr) (loc : Nat) (x : FlowSlot) (v : Option
    Via) (hK : Keeps a0 s) : Keeps a0 (State.program s h loc x v) := by
  unfold State.program; dsimp only; (repeat' split) <;> simp_all +contextual (maxDischargeDepth := 30)
@[simp] theorem State.newFlow_keeps {a : State} (s : State) (h : FlowHdr) (hK : Keeps a s) : Keeps a (State.newFlow s h) := by
  unfold State.newFlow
  extract_lets prof p fh part st spot translate s0
  have k0 : Keeps a s0 := by simp [s0, hK]
  clear_value st spot translate s0
  split
  · simp [hK]
  · cases st with
    | none => simp [hK]
    | some n =>
      dsimp only
      split
      · simp (maxDischargeDepth := 30) [k0]
      · split
        · simp [hK]
        · split
          · simp (maxDischargeDepth := 30) [k0]
          next s1 h1 =>
            have k1 := State.installToken_keeps s0 _ k0 _ h1
            split
            · simp (maxDischargeDepth := 30) [k0]
            next x hx =>
              have kd : Keeps a (if translate = true then s1.drawn else s1) := by simp (maxDischargeDepth := 30) [k1]
              have k2 := State.installAt_keeps _ h prof n fh spot x kd
              split
              · simp (maxDischargeDepth := 30) [k0]
              · simp [hK]
              next s2 loc h2 =>
                have k3 : Keeps a s2 := by rw [h2] at k2; exact k2
                split <;> simp (maxDischargeDepth := 30) [k3]
theorem State.toPrimary_keeps {a : State} (s : State) (h : FlowHdr) (v : Via) (hK : Keeps a s) :
    ∀ t, s.toPrimary h v = some t → Keeps a t := by
  intro t; unfold State.toPrimary
  (repeat' split) <;> rintro ⟨⟩ <;> simp [hK]
theorem State.toPrimary_getD {a : State} (s d : State) (h : FlowHdr) (v : Via) (hK : Keeps a s) (hD : Keeps a d) :
    Keeps a ((s.toPrimary h v).getD d) := by
  cases e : s.toPrimary h v with
  | none => exact hD
  | some t => exact State.toPrimary_keeps s h v hK t e
@[simp] theorem State.runOwn_keeps {a : State} (s : State) (h : FlowHdr) (fresh : Bool) (hK : Keeps a s) :
    Keeps a (s.runOwn h fresh) := by
  unfold State.runOwn
  extract_lets fh l s0 s1
  have k0 : Keeps a s0 := by simp [s0, hK]
  have k1 : Keeps a s1 := by simp [s1, k0]
  clear_value s0 s1
  split
  · split
    · exact State.toPrimary_getD _ _ _ _ (by simp [k1]) (by simp [k1])
    · simp [k1]
  · simp [k0]
  · simp [k0]
@[simp] theorem State.runHeader_keeps {a : State} (s : State) (h : FlowHdr) (fresh : Bool) (hK : Keeps a s) :
    Keeps a (s.runHeader h fresh) := by
  unfold State.runHeader
  (repeat' split) <;> first
    | exact State.toPrimary_getD _ _ _ _ hK (by simp [hK])
    | simp [hK]
@[simp] theorem State.abandonHdr_keeps {a0 : State} (s : State) (h : FlowHdr) (q cause mpc : Nat) (hK : Keeps a0 s) :
    Keeps a0 (State.abandonHdr s h q cause mpc) := by
  unfold State.abandonHdr; simp +contextual (maxDischargeDepth := 30) [hK]
@[simp] theorem State.runUpset_keeps {a : State} (s : State) (h : FlowHdr) (q : Nat) (u : Upset) (fresh : Bool)
    (hK : Keeps a s) : Keeps a (s.runUpset h q u fresh) := by
  cases u <;> simp [State.runUpset, hK]
@[simp] theorem takeHeader_keeps {a0 : State} (p : Nat) (u : Upset) (s : State) (hK : Keeps a0 s) : Keeps a0
    (takeHeader p u s) := by
  unfold takeHeader; (repeat' split) <;> simp_all +contextual (maxDischargeDepth := 30)
@[simp] theorem State.endFetch_keeps {a0 : State} (s : State) (p : Nat) (f : Fetch) (hK : Keeps a0 s) : Keeps a0
    (State.endFetch s p f) := by
  unfold State.endFetch; simp [hK]
@[simp] theorem State.resumeAll_keeps {a : State} (q : Nat) (l : List FlowHdr) : ∀ (us : List Upset) (s : State),
    Keeps a s → Keeps a (State.resumeAll q l us s) := by
  induction l with
  | nil => intro us s hK; exact hK
  | cons h l ih => intro us s hK; exact ih _ _ (by simp [hK])
@[simp] theorem State.wakeWaiting_keeps {a : State} (p loc n : Nat) : ∀ (s : State), Keeps a s →
    Keeps a (State.wakeWaiting p loc n s) := by
  induction n with
  | zero => intro s hK; exact hK
  | succ n ih =>
    intro s hK
    unfold State.wakeWaiting
    (repeat' split) <;> first
      | exact hK
      | exact ih _ (by simp (maxDischargeDepth := 30) [hK])
@[simp] theorem State.unpinned_keeps {a : State} (s : State) (p loc : Nat) (hK : Keeps a s) : Keeps a (s.unpinned p loc) :=
  State.wakeWaiting_keeps _ _ _ _ hK
@[simp] theorem State.loseRecord_keeps {a0 : State} (s : State) (p loc : Nat) (hK : Keeps a0 s) : Keeps a0
    (State.loseRecord s p loc) := by
  unfold State.loseRecord; simp +contextual (maxDischargeDepth := 30) [hK]
@[simp] theorem returnFetch_keeps {a0 : State} (p loc : Nat) (ecc : FetchEcc) (upsets : List Upset) (s : State) (hK
    : Keeps a0 s) : Keeps a0 (returnFetch p loc ecc upsets s) := by
  unfold returnFetch; (repeat' split) <;> simp_all +contextual (maxDischargeDepth := 30)
@[simp] theorem abandonFetch_keeps {a0 : State} (p loc : Nat) (s : State) (hK : Keeps a0 s) : Keeps a0 (abandonFetch
    p loc s) := by
  unfold abandonFetch; (repeat' split) <;> simp_all +contextual (maxDischargeDepth := 30)
@[simp] theorem State.sweepSlot_keeps {a0 : State} (s : State) (loc : Nat) (hK : Keeps a0 s) : Keeps a0
    (State.sweepSlot s loc) := by
  unfold State.sweepSlot; (repeat' split) <;> simp_all +contextual (maxDischargeDepth := 30)
@[simp] theorem sweep_keeps {a : State} (p : Nat) (s : State) (hK : Keeps a s) : Keeps a (sweep p s) := by
  unfold sweep
  generalize sweepDue s p = w
  cases w <;> simp +contextual (maxDischargeDepth := 30) [hK]

@[simp] theorem State.countRx_keeps {a0 : State} (s : State) (p octets : Nat) (hK : Keeps a0 s) : Keeps a0
    (State.countRx s p octets) := by
  unfold State.countRx; simp [hK]
@[simp] theorem takePfc_keeps {a0 : State} (p : Nat) (enable : BitVec 8) (quanta : List (BitVec 16)) (octets : Nat)
    (s : State) (hK : Keeps a0 s) : Keeps a0 (takePfc p enable quanta octets s) := by
  unfold takePfc; (repeat' split) <;> simp_all +contextual (maxDischargeDepth := 30)
@[simp] theorem takePause_keeps {a0 : State} (p : Nat) (quanta : BitVec 16) (octets : Nat) (s : State) (hK : Keeps a0
    s) : Keeps a0 (takePause p quanta octets s) := by
  unfold takePause; (repeat' split) <;> simp_all +contextual (maxDischargeDepth := 30)
@[simp] theorem pauseEnds_keeps {a0 : State} (p c : Nat) (s : State) (hK : Keeps a0 s) : Keeps a0 (pauseEnds p c s) := by
  unfold pauseEnds; (repeat' split) <;> simp_all +contextual (maxDischargeDepth := 30)
@[simp] theorem stormStarts_keeps {a0 : State} (p c : Nat) (s : State) (hK : Keeps a0 s) : Keeps a0 (stormStarts p c s) := by
  unfold stormStarts; (repeat' split) <;> simp_all +contextual (maxDischargeDepth := 30)
@[simp] theorem stormEnds_keeps {a0 : State} (p c : Nat) (s : State) (hK : Keeps a0 s) : Keeps a0 (stormEnds p c s) := by
  unfold stormEnds; (repeat' split) <;> simp_all +contextual (maxDischargeDepth := 30)
@[simp] theorem repeatXoff_keeps {a0 : State} (p c : Nat) (s : State) (hK : Keeps a0 s) : Keeps a0 (repeatXoff p c s) := by
  unfold repeatXoff; (repeat' split) <;> simp_all +contextual (maxDischargeDepth := 30)

@[simp] theorem State.macControl_keeps {a0 : State} (s : State) (p : Nat) (bs : List Byte) (hK : Keeps a0 s) : Keeps
    a0 (State.macControl s p bs) := by
  unfold State.macControl; simp +contextual (maxDischargeDepth := 30) [hK]
@[simp] theorem State.countOutcome_keeps {a0 : State} (s : State) (p : Nat) (o : Outcome) (hK : Keeps a0 s) : Keeps
    a0 (State.countOutcome s p o) := by
  unfold State.countOutcome; simp [hK]
@[simp] theorem State.ruleLook_keeps {a0 : State} (s : State) (c : LookCtx) (x : Port) (slot : Bool) (f : Frame) (y :
    Parse) (hK : Keeps a0 s) : Keeps a0 (State.ruleLook s c x slot f y).1 := by
  unfold State.ruleLook; dsimp only; (repeat' split) <;> simp_all +contextual (maxDischargeDepth := 30)
@[simp] theorem State.lookups_keeps {a0 : State} (s : State) (c : LookCtx) (x : Port) (slot : Bool) (f : Frame) (y :
    Parse) (hK : Keeps a0 s) : Keeps a0 (State.lookups s c x slot f y).1 := by
  unfold State.lookups; (repeat' split) <;> simp_all +contextual (maxDischargeDepth := 30)
@[simp] theorem State.chooseMember_keeps {a0 : State} (s : State) (c : LookCtx) (h : BitVec 64) (d : Dest) (hK :
    Keeps a0 s) : Keeps a0 (State.chooseMember s c h d).1 := by
  unfold State.chooseMember; (repeat' split) <;> simp_all +contextual (maxDischargeDepth := 30)
@[simp] theorem State.toInfuser_keeps {a0 : State} (s : State) (h : FlowHdr) (orig : List Byte) (hK : Keeps a0 s) :
    Keeps a0 (State.toInfuser s h orig) := by
  unfold State.toInfuser; simp +contextual (maxDischargeDepth := 30) [hK]
@[simp] theorem State.finishRx_keeps {a : State} (s before : State) (rx : RxFrame) (f : Frame) (fate : Fate)
    (hB : Keeps a before) (hK : Keeps a s) : Keeps a (s.finishRx before rx f fate) := by
  unfold State.finishRx; simp (maxDischargeDepth := 30) [hK, hB]
@[simp] theorem State.afterPolicer_keeps {a : State} (s before : State) (rx : RxFrame) (f : Frame) (y : Parse) (d : Dest)
    (slot : Bool) (t : Track) (hB : Keeps a before) (hK : Keeps a s) : Keeps a (s.afterPolicer before rx f y d slot t) := by
  cases t <;> simp (maxDischargeDepth := 30) [State.afterPolicer, hK, hB]
theorem State.afterLookups_keeps {a : State} (s before : State) (c : LookCtx) (x : Port) (rx : RxFrame) (f : Frame) (y : Parse)
    (slot : Bool) (fate : Fate) (hB : Keeps a before) (hK : Keeps a s) : Keeps a (s.afterLookups before c x rx f y slot fate) := by
  unfold State.afterLookups
  split
  · extract_lets t m
    have km : Keeps a m.1 := by simp (maxDischargeDepth := 30) [m, hK]
    split
    · have kp := State.police_keeps m.1 c f km
      split <;> simp_all (maxDischargeDepth := 30)
    · simp (maxDischargeDepth := 30) [km, hB]
  next g v =>
    have kp := State.police_keeps s c f hK
    split <;> simp_all (maxDischargeDepth := 30)
  · simp (maxDischargeDepth := 30) [hK, hB]
theorem State.portWrite_keeps {a : State} (s : State) (p off : Nat) (v : BitVec 64) (bad : Port → Bool) (f : State → State)
    (hf : ∀ x, Keeps a x → Keeps a (f x)) (hK : Keeps a s) : Keeps a (s.portWrite p off v bad f) := by
  unfold State.portWrite
  (repeat' split) <;> first
    | exact hK
    | (simp (maxDischargeDepth := 30) [hK]; done)
    | exact hf _ (by simp (maxDischargeDepth := 30) [hK])
@[simp] theorem State.runPipe_keeps {a : State} (s : State) (x : Port) (rx : RxFrame) (errored : Bool) (hK : Keeps a s) :
    Keeps a (State.runPipe s x rx errored) := by
  unfold State.runPipe
  dsimp only
  split
  · simp (maxDischargeDepth := 30) [hK]
  · split
    · simp (maxDischargeDepth := 30) [hK]
    · exact State.afterLookups_keeps _ _ _ _ _ _ _ _ _ hK (by simp (maxDischargeDepth := 30) [hK])
@[simp] theorem receive_keeps {a0 : State} (rx : RxFrame) (s : State) (hK : Keeps a0 s) : Keeps a0 (receive rx s) := by
  unfold receive; dsimp only; (repeat' split) <;> simp_all +contextual (maxDischargeDepth := 30)
@[simp] theorem writePunt_keeps {a : State} (p : Nat) (v : BitVec 64) (s : State) (hK : Keeps a s) : Keeps a (writePunt p v s) :=
  State.portWrite_keeps _ _ _ _ _ _ (fun x hx => by simp [hx]) hK
@[simp] theorem writeSample_keeps {a : State} (p : Nat) (v : BitVec 64) (s : State) (hK : Keeps a s) : Keeps a (writeSample p v s) :=
  State.portWrite_keeps _ _ _ _ _ _ (fun x hx => by simp (maxDischargeDepth := 30) [hx]) hK

@[simp] theorem profileSet_keeps {a0 : State} (n : Nat) (data : HostData) (s : State) (hK : Keeps a0 s) : KeepsR a0
    (profileSet n data s) := by
  unfold profileSet; dsimp only; (repeat' split) <;> simp_all +contextual (maxDischargeDepth := 30)
@[simp] theorem State.vacated_keeps {a : State} (s : State) (old : Option (Nat × FlowSlot)) (hK : Keeps a s) :
    Keeps a (s.vacated old) := by
  cases old <;> simp [State.vacated, hK]
theorem State.installBlock_keeps {a : State} (s : State) (r : BitVec 1024) (old : Option (Nat × FlowSlot)) (hK : Keeps a s) :
    KeepsP a (s.installBlock r old) := by
  unfold State.installBlock
  extract_lets k fh s0 spot
  have k0 : Keeps a s0 := by simp [s0, hK]
  clear_value s0 spot
  split
  · trivial
  · split
    · trivial
    next s1 loc h1 =>
      have k1 := State.takeSpot_keeps s0 _ k0 _ h1
      extract_lets i s2
      have k2 : Keeps a s2 := by
        simp only [s2, i]; cases old <;> simp_all (maxDischargeDepth := 30)
      clear_value s2
      split
      · exact k2
      next x hx =>
        have k3 := State.putTwin_keeps s2 loc k.1 x k.2 (old.bind (keptTwin s r)) k2
        split
        next s3 l h3 =>
          rw [h3] at k3
          simp only [KeepsP] at k3 ⊢
          simp [k3]
        · exact k3
@[simp] theorem flowInstallAct_keeps {a : State} (replace first : Bool) (data : HostData) (s : State) (hK : Keeps a s) :
    KeepsR a (flowInstallAct replace first data s) := by
  unfold flowInstallAct
  cases data with
  | none => exact hK
  | some b =>
    dsimp only
    generalize flowFind s _ = old
    have k := State.installBlock_keeps s (BitVec.ofNat 1024 (leNat (b.take 128))) old hK
    (repeat' split) <;> first
      | exact hK
      | (simp [hK]; done)
      | (rename_i t loc h c
         have k1 : Keeps a t := by rw [h] at k; exact k
         simp (maxDischargeDepth := 30) [k1])
@[simp] theorem flowDeleteAct_keeps {a0 : State} (key : BitVec 310) (s : State) (hK : Keeps a0 s) : KeepsR a0
    (flowDeleteAct key s) := by
  unfold flowDeleteAct; (repeat' split) <;> simp_all +contextual (maxDischargeDepth := 30)
@[simp] theorem flowGetAct_keeps {a0 : State} (buf : Addr) (id : BitVec 64) (loc : Nat) (s : State) (hK : Keeps a0 s)
    : KeepsR a0 (flowGetAct buf id loc s) := by
  unfold flowGetAct; (repeat' split) <;> simp_all +contextual (maxDischargeDepth := 30)
@[simp] theorem flowStatus_keeps {a0 : State} (q : Nat) (s : State) (hK : Keeps a0 s) : KeepsR a0 (flowStatus q s) := by
  unfold flowStatus; simp [hK]

@[simp] theorem searchAct_keeps {a0 : State} (tab : Nat) (key : BitVec 310) (q : Nat) (buf : Addr) (s : State) (hK :
    Keeps a0 s) : KeepsR a0 (searchAct tab key q buf s) := by
  unfold searchAct; dsimp only; (repeat' split) <;> simp_all +contextual (maxDischargeDepth := 30)
@[simp] theorem State.giveCursor_keeps {a : State} (s : State) (x : Cursor) (hK : Keeps a s) : Keeps a (s.giveCursor x) :=
  (State.modTables_keeps s (fun t => { t with cursors := Map.ins t.cursors s.dev.nextCursor x }) hK).of rfl rfl rfl rfl rfl rfl rfl
@[simp] theorem nextAct_keeps {a0 : State} (cursor : BitVec 64) (buf : Addr) (tab q count : Nat) (s : State) (hK :
    Keeps a0 s) : KeepsR a0 (nextAct cursor buf tab q count s) := by
  unfold nextAct; dsimp only; (repeat' split) <;> simp_all +contextual (maxDischargeDepth := 30)
@[simp] theorem flushAct_keeps {a0 : State} (tab p vlan : Nat) (withStatic : Bool) (s : State) (hK : Keeps a0 s) :
    KeepsR a0 (flushAct tab p vlan withStatic s) := by
  unfold flushAct; dsimp only; (repeat' split) <;> simp_all +contextual (maxDischargeDepth := 30)

@[simp] theorem State.clearVoqCounters_keeps {a0 : State} (s : State) (p : Nat) (hK : Keeps a0 s) : Keeps a0
    (State.clearVoqCounters s p) := by
  unfold State.clearVoqCounters; simp +contextual (maxDischargeDepth := 30) [hK]
@[simp] theorem State.createPort_keeps {a0 : State} (s : State) (p typ : Nat) (hK : Keeps a0 s) : Keeps a0
    (State.createPort s p typ) := by
  unfold State.createPort; simp +contextual (maxDischargeDepth := 30) [hK]
@[simp] theorem portCreateAct_keeps {a0 : State} (slice : Handle) (first typ : Nat) (s : State) (hK : Keeps a0 s) :
    KeepsR a0 (portCreateAct slice first typ s) := by
  unfold portCreateAct; dsimp only; (repeat' split) <;> simp_all +contextual (maxDischargeDepth := 30)
theorem nextGen_ne : ∀ g : BitVec 8, nextGen g ≠ 0 := by decide
theorem gens_ins (t : Tbl (BitVec 8)) (k : Nat) (g : BitVec 8) (ht : t.all (fun e => e.2 != 0) = true) :
    (Map.ins t k (nextGen g)).all (fun e => e.2 != 0) = true := by
  rw [List.all_eq_true] at *
  intro e he
  rcases Map.mem_ins he with rfl | m
  · simpa using nextGen_ne g
  · exact ht e m
@[simp] theorem State.destroyPort_keeps {a0 : State} (s : State) (p : Nat) (hK : Keeps a0 s) : Keeps a0 (State.destroyPort s p) := by
  unfold State.destroyPort
  split
  · exact hK
  next x hx =>
    extract_lets s1 s2 s3
    have h1 : Keeps a0 s1 := Keeps.nats _ _ hK fun y hy l => by simp (maxDischargeDepth := 30) [hy]
    have h3 : Keeps a0 s3 := by simp (maxDischargeDepth := 30) [s3, s2, h1]
    clear_value s3
    exact State.agents_keeps _ ⟨h3.1, h3.2.1, fun x =>
      let y := h3.2.2 x
      ⟨y.counters, gens_ins _ _ _ y.gens, y.svn, y.ioam, y.synce⟩⟩
@[simp] theorem portDestroyAct_keeps {a0 : State} (h : Handle) (s : State) (hK : Keeps a0 s) : KeepsR a0
    (portDestroyAct h s) := by
  unfold portDestroyAct; (repeat' split) <;> simp_all +contextual (maxDischargeDepth := 30)
@[simp] theorem portStatusAct_keeps {a0 : State} (p : Nat) (s : State) (hK : Keeps a0 s) : KeepsR a0 (portStatusAct p
    s) := by
  unfold portStatusAct; (repeat' split) <;> simp_all +contextual (maxDischargeDepth := 30)
@[simp] theorem attrSetAct_keeps {a0 : State} (p : Nat) (a : BitVec 32) (s : State) (hK : Keeps a0 s) : KeepsR a0
    (attrSetAct p a s) := by
  unfold attrSetAct; dsimp only; (repeat' split) <;> simp_all +contextual (maxDischargeDepth := 30)

end Sys2Proof.Machine
end

