-- ==== Sys2Proof/Laws/KeepsFabric.lean ====
section
/-! SUPPORT. What leaves the command queue, the mode and the soundness of the state alone: the fabric, gates, transmission and telemetry. -/

set_option linter.unusedSimpArgs false

namespace Sys2Proof.Machine

@[simp] theorem State.chargeShaper_keeps {a0 : State} (s : State) (i : Nat) (bytes : Int) (hK : Keeps a0 s) : Keeps
    a0 (State.chargeShaper s i bytes) := by
  unfold State.chargeShaper; simp [hK]
@[simp] theorem State.egrTake_keeps {a0 : State} (s : State) (sl n : Nat) (hK : Keeps a0 s) : Keeps a0 (State.egrTake
    s sl n) := by
  unfold State.egrTake; simp [hK]
@[simp] theorem State.egrGive_keeps {a0 : State} (s : State) (sl n : Nat) (hK : Keeps a0 s) : Keeps a0 (State.egrGive
    s sl n) := by
  unfold State.egrGive; simp [hK]
@[simp] theorem State.sendCell_keeps {a0 : State} (s : State) (ins : Nat) (outs : List Nat) (port : Option PortNo)
    (idx : Nat) (f : Frame) (plane : Nat) (hK : Keeps a0 s) : Keeps a0 (State.sendCell s ins outs port idx f plane) := by
  unfold State.sendCell; simp +contextual (maxDischargeDepth := 30) [hK]
@[simp] theorem State.dequeue_keeps {a0 : State} (s : State) (v : Nat) (f : Frame) (hK : Keeps a0 s) : Keeps a0
    (State.dequeue s v f) := by
  unfold State.dequeue; simp +contextual (maxDischargeDepth := 30) [hK]
@[simp] theorem State.dropHead_keeps {a0 : State} (s : State) (v : Nat) (hK : Keeps a0 s) : Keeps a0 (State.dropHead
    s v) := by
  unfold State.dropHead; (repeat' split) <;> simp_all +contextual (maxDischargeDepth := 30)
@[simp] theorem State.bufFault_keeps {a : State} (s : State) (sl : Nat) (e : Bool) (x : BufEcc) (hK : Keeps a s) :
    Keeps a (s.bufFault sl e x) := by
  cases x <;> simp [State.bufFault, hK]
@[simp] theorem State.sendGranted_keeps {a : State} (sl p c n : Nat) : ∀ (s : State), Keeps a s → Keeps a (State.sendGranted sl p c n s) := by
  induction n with
  | zero => intro s hK; exact hK
  | succ n ih =>
    intro s hK; unfold State.sendGranted
    extract_lets v
    split
    next f rest x plane pl _ _ _ =>
      split
      · exact hK
      · extract_lets s0 s1 s2
        have h0 : Keeps a s0 := by simp [s0, hK]
        have h1 : Keeps a s1 := by simp (maxDischargeDepth := 30) [s1, h0]
        exact ih _ (by simp [s2, h1])
    · exact hK
@[simp] theorem giveGrant_keeps {a0 : State} (p : Nat) (ecc : BufEcc) (s : State) (hK : Keeps a0 s) : Keeps a0 (giveGrant p ecc s) := by
  unfold giveGrant
  split
  · exact hK
  · split
    · exact hK
    · split
      · exact hK
      · simp (maxDischargeDepth := 30) [hK]
@[simp] theorem State.modReorder_keeps {a0 : State} (s : State) (o ins : Nat) (f : Reorder → Reorder) (hK : Keeps a0
    s) : Keeps a0 (State.modReorder s o ins f) := by
  unfold State.modReorder; simp [hK]
@[simp] theorem State.credit_keeps {a0 : State} (s : State) (c : Cell) (hK : Keeps a0 s) : Keeps a0 (State.credit s c) := by
  unfold State.credit; (repeat' split) <;> simp_all +contextual (maxDischargeDepth := 30)
@[simp] theorem State.landCell_keeps {a0 : State} (s : State) (p : Nat) (x : Port) (c : Cell) (hK : Keeps a0 s) :
    Keeps a0 (State.landCell s p x c) := by
  unfold State.landCell; simp +contextual (maxDischargeDepth := 30) [hK]
@[simp] theorem State.toEq_keeps {a0 : State} (s : State) (p c : Nat) (f : Frame) (ins : SliceNo) (hK : Keeps a0 s) :
    Keeps a0 (State.toEq s p c f ins) := by
  unfold State.toEq; simp [hK]
@[simp] theorem State.copyTo_keeps {a0 : State} (s : State) (p : Nat) (f : Frame) (ins : SliceNo) (hK : Keeps a0 s) :
    Keeps a0 (State.copyTo s p f ins) := by
  unfold State.copyTo; (repeat' split) <;> simp_all +contextual (maxDischargeDepth := 30)
@[simp] theorem State.landed_keeps {a0 : State} (s : State) (c : Cell) (hK : Keeps a0 s) : Keeps a0 (State.landed s c) := by
  unfold State.landed; (repeat' split) <;> simp_all +contextual (maxDischargeDepth := 30)
@[simp] theorem State.drainOrder_keeps {a : State} (o i n : Nat) : ∀ (s : State), Keeps a s → Keeps a (State.drainOrder o i n s) := by
  induction n with
  | zero => intro s hK; exact hK
  | succ n ih => intro s hK; unfold State.drainOrder; dsimp only; split <;> simp_all (maxDischargeDepth := 30)
@[simp] theorem State.arrive_keeps {a0 : State} (s : State) (c : Cell) (hK : Keeps a0 s) : Keeps a0 (State.arrive s c) := by
  unfold State.arrive; dsimp only; split <;> simp (maxDischargeDepth := 30) [hK]
@[simp] theorem fabricArrival_keeps {a0 : State} (o idx : Nat) (s : State) (hK : Keeps a0 s) : Keeps a0
    (fabricArrival o idx s) := by
  unfold fabricArrival; (repeat' split) <;> simp_all +contextual (maxDischargeDepth := 30)
@[simp] theorem State.loseInFlight_keeps {a0 : State} (s : State) (p : Cell → Bool) (hK : Keeps a0 s) : Keeps a0
    (State.loseInFlight s p) := by
  unfold State.loseInFlight; simp +contextual (maxDischargeDepth := 30) [hK]
@[simp] theorem failPlane_keeps {a0 : State} (q k : Nat) (s : State) (hK : Keeps a0 s) : Keeps a0 (failPlane q k s) := by
  unfold failPlane; simp +contextual (maxDischargeDepth := 30) [hK]
@[simp] theorem State.cutVoq_keeps {a0 : State} (s : State) (gone : List Frame) (v : Nat) (hK : Keeps a0 s) : Keeps
    a0 (State.cutVoq s gone v) := by
  unfold State.cutVoq; (repeat' split) <;> simp_all +contextual (maxDischargeDepth := 30)
@[simp] theorem seqTimeout_keeps {a0 : State} (o ins : Nat) (s : State) (hK : Keeps a0 s) : Keeps a0 (seqTimeout o ins s) := by
  unfold seqTimeout
  dsimp only
  (repeat' split) <;> first
    | with_reducible exact hK
    | simp +contextual (maxDischargeDepth := 30) [hK]
@[simp] theorem State.sendPass_keeps {a : State} (sl : Nat) (f : Frame) (g l : List Nat) :
    ∀ (s : State), Keeps a s → Keeps a (State.sendPass sl f g l s) := by
  induction l with
  | nil => intro s hK; exact hK
  | cons k l ih => intro s hK; unfold State.sendPass; split <;> simp_all (maxDischargeDepth := 30)
@[simp] theorem State.pass_keeps {a0 : State} (s : State) (sl c : Nat) (f : Frame) (hK : Keeps a0 s) : Keeps a0 (State.pass s sl c f) := by
  unfold State.pass; simp (maxDischargeDepth := 30) [hK]
@[simp] theorem State.mcSpoilt_keeps {a0 : State} (s : State) (sl c : Nat) (f : Frame) (hK : Keeps a0 s) : Keeps a0
    (State.mcSpoilt s sl c f) := by
  unfold State.mcSpoilt; simp +contextual (maxDischargeDepth := 30) [hK]
@[simp] theorem mcPass_keeps {a0 : State} (sl c : Nat) (ecc : BufEcc) (s : State) (hK : Keeps a0 s) : Keeps a0
    (mcPass sl c ecc s) := by
  unfold mcPass; dsimp only; (repeat' split) <;> simp_all +contextual (maxDischargeDepth := 30)
@[simp] theorem mcSplit_keeps {a0 : State} (sl c : Nat) (s : State) (hK : Keeps a0 s) : Keeps a0 (mcSplit sl c s) := by
  unfold mcSplit; dsimp only; (repeat' split) <;> simp_all +contextual (maxDischargeDepth := 30)
@[simp] theorem State.spillRead_keeps {a0 : State} (s : State) (q : Nat) (r : Runs) (hK : Keeps a0 s) : Keeps a0
    (State.spillRead s q r) := by
  unfold State.spillRead; simp +contextual (maxDischargeDepth := 30) [hK]
@[simp] theorem State.readIn_keeps {a0 : State} (s : State) (f : Frame) (hK : Keeps a0 s) : Keeps a0 (State.readIn s
    f).1 := by
  unfold State.readIn; simp [hK]
@[simp] theorem State.spillLost_keeps {a0 : State} (s : State) (l : List Frame) (hK : Keeps a0 s) : Keeps a0
    (State.spillLost s l) := by
  unfold State.spillLost; simp +contextual (maxDischargeDepth := 30) [hK]
@[simp] theorem State.loseCells_keeps {a0 : State} (s : State) (q k : Nat) (hK : Keeps a0 s) : Keeps a0
    (State.loseCells s q k) := by
  unfold State.loseCells; simp [hK]
@[simp] theorem State.spillFault_keeps {a : State} (s : State) (q : Nat) (x : SpillEcc) (hK : Keeps a s) :
    Keeps a (s.spillFault q x) := by
  cases x <;> simp [State.spillFault, hK]
@[simp] theorem readVoq_keeps {a0 : State} (sl v : Nat) (ecc : SpillEcc) (s0 : State) (hK : Keeps a0 s0) : Keeps a0 (readVoq sl v ecc s0) := by
  unfold readVoq; simp +contextual (maxDischargeDepth := 30) [hK]
@[simp] theorem readResidue_keeps {a0 : State} (sl e c : Nat) (ecc : SpillEcc) (s0 : State) (hK : Keeps a0 s0) :
    Keeps a0 (readResidue sl e c ecc s0) := by
  unfold readResidue
  dsimp only
  (repeat' split) <;> first
    | with_reducible exact hK
    | simp (maxDischargeDepth := 30) [hK]
@[simp] theorem readBack_keeps {a0 : State} (sl : Nat) (k : SpillQueue) (ecc : SpillEcc) (s : State) (hK : Keeps a0
    s) : Keeps a0 (readBack sl k ecc s) := by
  unfold readBack; (repeat' split) <;> simp_all +contextual (maxDischargeDepth := 30)
@[simp] theorem refill_keeps {a0 : State} (q : Nat) (s : State) (hK : Keeps a0 s) : Keeps a0 (refill q s) := by
  unfold refill; simp +contextual (maxDischargeDepth := 30) [hK]
@[simp] theorem writeback_keeps {a0 : State} (q : Nat) (s : State) (hK : Keeps a0 s) : Keeps a0 (writeback q s) := by
  unfold writeback; simp +contextual (maxDischargeDepth := 30) [hK]
@[simp] theorem buildDone_keeps {a0 : State} (q : Nat) (s : State) (hK : Keeps a0 s) : Keeps a0 (buildDone q s) := by
  unfold buildDone; simp [hK]
@[simp] theorem State.endFlush_keeps {a0 : State} (s : State) (v : Nat) (hK : Keeps a0 s) : Keeps a0 (State.endFlush
    s v) := by
  unfold State.endFlush; simp +contextual (maxDischargeDepth := 30) [hK]
@[simp] theorem walkDone_keeps {a0 : State} (v : Nat) (ecc : SpillEcc) (s : State) (hK : Keeps a0 s) : Keeps a0
    (walkDone v ecc s) := by
  unfold walkDone; simp +contextual (maxDischargeDepth := 30) [hK]
@[simp] theorem State.dropSpill_keeps {a0 : State} (s : State) (q : Nat) (hK : Keeps a0 s) : Keeps a0
    (State.dropSpill s q) := by
  unfold State.dropSpill; simp +contextual (maxDischargeDepth := 30) [hK]
@[simp] theorem State.buildSpill_keeps {a0 : State} (s : State) (q : Nat) (hK : Keeps a0 s) : Keeps a0
    (State.buildSpill s q) := by
  unfold State.buildSpill; simp +contextual (maxDischargeDepth := 30) [hK]
@[simp] theorem setBufClass_keeps {a0 : State} (slice : Handle) (c : Nat) (v : BitVec 32) (s : State) (hK : Keeps a0
    s) : KeepsR a0 (setBufClass slice c v s) := by
  unfold setBufClass; simp +contextual (maxDischargeDepth := 30) [hK]
@[simp] theorem flushVoq_keeps {a0 : State} (sub : Sub) (v : Nat) (s : State) (hK : Keeps a0 s) : KeepsR a0 (flushVoq
    sub v s) := by
  unfold flushVoq; dsimp only; (repeat' split) <;> simp_all +contextual (maxDischargeDepth := 30)

@[simp] theorem State.countWaits_keeps {a0 : State} (s : State) (p c : Nat) (hK : Keeps a0 s) : Keeps a0
    (State.countWaits s p c) := by
  unfold State.countWaits; (repeat' split) <;> simp_all +contextual (maxDischargeDepth := 30)
@[simp] theorem entryChange_keeps {a0 : State} (p : Nat) (s : State) (hK : Keeps a0 s) : Keeps a0 (entryChange p s) := by
  unfold entryChange; dsimp only; (repeat' split) <;> simp_all +contextual (maxDischargeDepth := 30)
@[simp] theorem startList_keeps {a0 : State} (p : Nat) (s : State) (hK : Keeps a0 s) : Keeps a0 (startList p s) := by
  unfold startList; (repeat' split) <;> simp_all +contextual (maxDischargeDepth := 30)
@[simp] theorem setGates_keeps {a0 : State} (p : Nat) (base : TimeVal) (cycle count : Nat) (data : HostData) (s :
    State) (hK : Keeps a0 s) : KeepsR a0 (setGates p base cycle count data s) := by
  unfold setGates; dsimp only; (repeat' split) <;> simp_all +contextual (maxDischargeDepth := 30)
@[simp] theorem getGates_keeps {a0 : State} (p : Nat) (buf : Addr) (s : State) (hK : Keeps a0 s) : KeepsR a0
    (getGates p buf s) := by
  unfold getGates; (repeat' split) <;> simp_all +contextual (maxDischargeDepth := 30)
@[simp] theorem abortGates_keeps {a0 : State} (p : Nat) (s : State) (hK : Keeps a0 s) : KeepsR a0 (abortGates p s) := by
  unfold abortGates; (repeat' split) <;> simp_all +contextual (maxDischargeDepth := 30)

@[simp] theorem State.dropEq_keeps {a0 : State} (s : State) (p c : Nat) (e : EqFrame) (rest : List EqFrame) (hK :
    Keeps a0 s) : Keeps a0 (State.dropEq s p c e rest) := by
  unfold State.dropEq; simp +contextual (maxDischargeDepth := 30) [hK]
@[simp] theorem State.startFrame_keeps {a0 : State} (s : State) (p : Nat) (x : Port) (c pPrime : Nat) (arriving :
    BitVec 8) (e : EqFrame) (rest : List EqFrame) (hK : Keeps a0 s) : Keeps a0 (State.startFrame s p x c pPrime arriving
    e rest) := by
  unfold State.startFrame; simp +contextual (maxDischargeDepth := 30) [hK]
@[simp] theorem State.dropUnfit_keeps {a : State} (p c n : Nat) : ∀ (w : BitVec 8) (s : State), Keeps a s →
    Keeps a (State.dropUnfit w p c n s) := by
  induction n with
  | zero => intro w s hK; exact hK
  | succ n ih => intro w s hK; unfold State.dropUnfit; (repeat' split) <;> simp_all (maxDischargeDepth := 30)
@[simp] theorem decide1_keeps {a0 : State} (p pPrime : Nat) (arriving : BitVec 8) (s0 : State) (hK : Keeps a0 s0) :
    Keeps a0 (decide1 p pPrime arriving s0) := by
  unfold decide1
  split
  · exact hK
  · split
    · exact hK
    · extract_lets s
      have h1 : Keeps a0 s := Keeps.nats _ _ hK fun y hy c => by simp [hy]
      split
      · exact h1
      · extract_lets sel x
        (repeat' split) <;> simp (maxDischargeDepth := 30) [h1]
@[simp] theorem State.txDone_keeps {a0 : State} (s : State) (p : Nat) (hK : Keeps a0 s) : Keeps a0 (State.txDone s p) := by
  unfold State.txDone; simp [hK]
@[simp] theorem State.sampleTx_keeps {a0 : State} (s : State) (p : Nat) (x : Port) (f : Frame) (hK : Keeps a0 s) :
    Keeps a0 (State.sampleTx s p x f) := by
  unfold State.sampleTx; simp +contextual (maxDischargeDepth := 30) [hK]
@[simp] theorem State.pushPostcard_keeps {a0 : State} (s : State) (sl : Nat) (r : BitVec 256) (hK : Keeps a0 s) :
    Keeps a0 (State.pushPostcard s sl r) := by
  unfold State.pushPostcard; simp [hK]
@[simp] theorem State.postcard_keeps {a0 : State} (s : State) (p : Nat) (x : Port) (f : Frame) (hK : Keeps a0 s) :
    Keeps a0 (State.postcard s p x f) := by
  unfold State.postcard; simp +contextual (maxDischargeDepth := 30) [hK]
@[simp] theorem State.sentOwn_keeps {a0 : State} (s : State) (p : Nat) (x : Port) (f : Frame) (hK : Keeps a0 s) :
    Keeps a0 (State.sentOwn s p x f) := by
  unfold State.sentOwn; (repeat' split) <;> simp_all +contextual (maxDischargeDepth := 30)
@[simp] theorem State.endCopy_keeps {a0 : State} (s : State) (p : Nat) (x : Port) (hK : Keeps a0 s) : Keeps a0
    (State.endCopy s p x) := by
  unfold State.endCopy; simp +contextual (maxDischargeDepth := 30) [hK]
@[simp] theorem State.trueCharge_keeps {a0 : State} (s : State) (p : Nat) (x : Port) (f : Frame) (hK : Keeps a0 s) :
    Keeps a0 (State.trueCharge s p x f) := by
  unfold State.trueCharge; simp +contextual (maxDischargeDepth := 30) [hK]
@[simp] theorem State.sendWhole_keeps {a0 : State} (s : State) (p : Nat) (x : Port) (f : Frame) (hK : Keeps a0 s) :
    Keeps a0 (State.sendWhole s p x f) := by
  unfold State.sendWhole; simp +contextual (maxDischargeDepth := 30) [hK]
@[simp] theorem transmit_keeps {a0 : State} (p : Nat) (ecc : BufEcc) (crossed : Bool) (s0 : State) (hK : Keeps a0 s0) :
    Keeps a0 (transmit p ecc crossed s0) := by
  unfold transmit
  dsimp only
  (repeat' split) <;> first
    | with_reducible exact hK
    | simp (maxDischargeDepth := 30) [hK]
@[simp] theorem ptpSend_keeps {a0 : State} (p len : Nat) (kind : FrameKind) (cls : Nat) (data : HostData)
    (s : State) (hK : Keeps a0 s) : KeepsR a0 (ptpSend p len kind cls data s) := by
  unfold ptpSend; (repeat' split) <;> simp_all +contextual (maxDischargeDepth := 30)
@[simp] theorem exportFrame_keeps {a0 : State} (c : Nat) (bad : SpoolErrors) (s : State) (hK : Keeps a0 s) : Keeps
    a0 (exportFrame c bad s) := by
  unfold exportFrame; simp +contextual (maxDischargeDepth := 30) [hK]
@[simp] theorem State.admitPostcard_keeps {a0 : State} (s : State) (sl : Nat) (f : Frame) (hK : Keeps a0 s) : Keeps
    a0 (State.admitPostcard s sl f).1 := by
  unfold State.admitPostcard; simp +contextual (maxDischargeDepth := 30) [hK]
@[simp] theorem postcardFrame_keeps {a0 : State} (sl : Nat) (s : State) (hK : Keeps a0 s) : Keeps a0 (postcardFrame
    sl s) := by
  unfold postcardFrame; simp +contextual (maxDischargeDepth := 30) [hK]

@[simp] theorem snapshot_keeps {a0 : State} (buf : Addr) (first n : Nat) (s : State) (hK : Keeps a0 s) : KeepsR a0
    (snapshot buf first n s) := by
  unfold snapshot; simp [hK]
@[simp] theorem State.setSctr_keeps {a0 : State} (s : State) (i : Nat) (x : Sctr) (hK : Keeps a0 s) : Keeps a0
    (State.setSctr s i x) := by
  unfold State.setSctr; simp [hK]
@[simp] theorem sctrSetAct_keeps {a0 : State} (i : Nat) (event queue : BitVec 16) (en : Bool) (thresh : BitVec 64) (s
    : State) (hK : Keeps a0 s) : KeepsR a0 (sctrSetAct i event queue en thresh s) := by
  unfold sctrSetAct; simp [hK]
@[simp] theorem crossing_keeps {a0 : State} (i : Nat) (s : State) (hK : Keeps a0 s) : Keeps a0 (crossing i s) := by
  unfold crossing; simp +contextual (maxDischargeDepth := 30) [hK]
@[simp] theorem State.sampleTrap_keeps {a0 : State} (s : State) (sl : Nat) (c : Capture) (hK : Keeps a0 s) : Keeps a0
    (State.sampleTrap s sl c) := by
  unfold State.sampleTrap; simp +contextual (maxDischargeDepth := 30) [hK]
@[simp] theorem capture_keeps {a0 : State} (i : Nat) (c : Capture) (s : State) (hK : Keeps a0 s) : Keeps a0 (capture
    i c s) := by
  unfold capture; simp +contextual (maxDischargeDepth := 30) [hK]

end Sys2Proof.Machine
end

