-- ==== Sys2Proof/Laws/KeepsModes.lean ====
section
/-! SUPPORT. What leaves the command queue, the mode and the soundness of the state alone: modes, retention, resets, BOOT and register writes, with the mode transitions that they make. -/

set_option linter.unusedSimpArgs false

namespace Sys2Proof.Machine

/-- A state with its mode changed. -/
def State.inMode (a : State) (m : Mode) : State := { a with dev := { a.dev with mode := m } }

theorem Sound.inMode {a : State} (m : Mode) (h : Sound a) : Sound (a.inMode m) := ⟨h.counters, h.gens, h.svn, h.ioam, h.synce⟩

def Moves (a t : State) : Prop :=
  t.pending = a.pending ∧ (t.dev.mode = a.dev.mode ∨ modeArrow a.dev.mode t.dev.mode = true) ∧ (Sound a → Sound t)
def MovesR (a : State) : Res → Prop
  | .ok _ t => Moves a t
  | .fail _ t => Moves a t
  | .wait t => Moves a t

theorem Keeps.moves {a t : State} (h : Keeps a t) : Moves a t := ⟨h.1, .inl h.2.1, h.2.2⟩
theorem KeepsR.moves {a : State} {r : Res} (h : KeepsR a r) : MovesR a r := by cases r <;> exact Keeps.moves h
theorem Keeps.moved {a t : State} {m : Mode} (hm : modeArrow a.dev.mode m = true) (h : Keeps (a.inMode m) t) : Moves a t :=
  ⟨h.1, .inr (by rw [h.2.1]; exact hm), fun x => h.2.2 (x.inMode m)⟩
theorem Moves.after {a t : State} (h : Moves a t) {u : State} (k : Keeps t u) : Moves a u :=
  ⟨k.1.trans h.1, by rw [k.2.1]; exact h.2.1, fun x => k.2.2 (h.2.2 x)⟩
theorem Keeps.then {a t : State} (h : Keeps a t) {u : State} (k : Moves t u) : Moves a u :=
  ⟨k.1.trans h.1, by rw [← h.2.1]; exact k.2.1, fun x => k.2.2 (h.2.2 x)⟩
theorem Keeps.setMode {a t : State} (m : Mode) (h : Keeps a t) : Keeps (a.inMode m) (t.setMode m) :=
  ⟨h.1, rfl, fun x => let y := h.2.2 ⟨x.counters, x.gens, x.svn, x.ioam, x.synce⟩; ⟨y.counters, y.gens, y.svn, y.ioam, y.synce⟩⟩

theorem Res.settled_moves {a : State} (r : Res) (qn : Nat) (row : CmdRow) (e : Exec) (h : MovesR a r) : Moves a (r.settled qn row e) := by
  cases r with
  | ok x t => exact Moves.after h (State.finish_keeps t qn e .ok row.rlen x (Keeps.refl t))
  | fail st t => exact Moves.after h (State.finish_keeps t qn e st 0 0 (Keeps.refl t))
  | wait t => exact Moves.after h (State.modQueue_keeps t qn _ (Keeps.refl t))
theorem State.orphanRes_moves {a : State} (s : State) (o : Orphan) (r : Res) (h : MovesR a r) : Moves a (s.orphanRes o r) := by
  cases r with
  | ok x t => exact Moves.after h (by simp (maxDischargeDepth := 30) [State.orphanRes])
  | fail st t => exact Moves.after h (by simp (maxDischargeDepth := 30) [State.orphanRes])
  | wait t => exact Moves.after h (by simp (maxDischargeDepth := 30) [State.orphanRes])

/-- A body whose rule makes no mode transition but those of Table 16.6. -/
def Body.Moves (a : State) (b : Body) : Prop := ∀ s, Machine.Keeps a s → MovesR a (b.act s) ∧ MovesR a (b.again s)
theorem Body.Keeps.moves {a : State} {b : Body} (h : b.Keeps a) : b.Moves a := fun s hs => ⟨(h s hs).1.moves, (h s hs).2.moves⟩

theorem State.actOn_moves {a : State} (s : State) (qn : Nat) (row : CmdRow) (e : Exec) (b : Body) (hb : b.Moves a)
    (hK : Keeps a s) : Moves a (s.actOn qn row e b) := by
  unfold State.actOn
  split
  · exact Res.settled_moves _ _ _ _ (hb s hK).2
  · split
    · exact Keeps.moves (by simp [hK])
    · dsimp only
      have hu := State.readied_keeps s qn (b.doms s) e hK
      split
      · exact Res.settled_moves _ _ _ _ (hb _ hu).1
      · exact hu.moves
theorem State.actOrphan_moves {a : State} (s : State) (row : CmdRow) (o : Orphan) (b : Body) (hb : b.Moves a)
    (hK : Keeps a s) : Moves a (s.actOrphan row o b) := by
  unfold State.actOrphan
  split
  · exact State.orphanRes_moves _ _ _ (hb s hK).2
  · split
    · exact Keeps.moves (by simp [hK])
    · extract_lets ds fresh e1 o1 s1
      have h1 : Keeps a s1 := by simp +contextual (maxDischargeDepth := 30) [s1, hK]
      split
      · exact State.orphanRes_moves _ _ _ (hb s1 h1).1
      · exact h1.moves
theorem runCommand_moves {a : State} (row : CmdRow) (sub : Sub) (param : BitVec 384) (b : Body) (s : State) (hb : b.Moves a)
    (hK : Keeps a s) : Moves a (runCommand row sub param b s) := by
  have h1 := State.startRow_keeps s sub row param hK
  unfold runCommand
  (repeat' split) <;> first
    | exact hK.moves
    | exact State.actOn_moves _ _ _ _ _ hb hK
    | exact State.actOrphan_moves _ _ _ _ hb hK
    | (dsimp only; split; exact State.actOn_moves _ _ _ _ _ hb h1; exact h1.moves)
@[simp] theorem State.discardAll_keeps {a0 : State} (s : State) (hK : Keeps a0 s) : Keeps a0 (State.discardAll s) := by
  unfold State.discardAll; simp +contextual (maxDischargeDepth := 30) [hK]
@[simp] theorem State.endAllTx_keeps {a0 : State} (s : State) (hK : Keeps a0 s) : Keeps a0 (State.endAllTx s) := by
  unfold State.endAllTx; simp +contextual (maxDischargeDepth := 30) [hK]
theorem State.moveMode_keeps {a : State} (s : State) (m : Mode) (hK : Keeps a s) : Keeps (a.inMode m) (s.moveMode m) :=
  Keeps.setMode m (by split <;> simp [hK])
@[simp] theorem State.afterRun_keeps {a0 : State} (old : Mode) (s : State) (hK : Keeps a0 s) : Keeps a0
    (State.afterRun old s) := by
  unfold State.afterRun; simp [hK]
@[simp] theorem State.modeEvent_keeps {a0 : State} (s : State) (hK : Keeps a0 s) : Keeps a0 (State.modeEvent s) := by
  unfold State.modeEvent; simp [hK]
theorem State.toConfigure_keeps {a : State} (s : State) (hK : Keeps a s) : Keeps (a.inMode .configure) s.toConfigure := by
  have h := State.moveMode_keeps s .configure hK
  unfold State.toConfigure; simp [h]
@[simp] theorem State.startMeters_keeps {a0 : State} (s : State) (hK : Keeps a0 s) : Keeps a0 (State.startMeters s) := by
  unfold State.startMeters; simp [hK]
theorem State.toRun_keeps {a : State} (s : State) (hK : Keeps a s) : Keeps (a.inMode .run) s.toRun := by
  have h := Keeps.setMode .run hK
  unfold State.toRun; simp (maxDischargeDepth := 30) [h]
@[simp] theorem State.harmless_keeps {a0 : State} (s : State) (hK : Keeps a0 s) : Keeps a0 (State.harmless s) := by
  unfold State.harmless; simp [hK]
theorem State.enterSafe_keeps {a : State} (s : State) (cause : BitVec 128) (hK : Keeps a s) :
    Keeps (a.inMode .safe) (s.enterSafe cause) := by
  have h := State.moveMode_keeps s .safe hK
  unfold State.enterSafe
  extract_lets s1 s2 s3
  have h3 : Keeps (a.inMode .safe) s3 := by simp (maxDischargeDepth := 30) [s3, s2, s1, h]
  exact h3.of rfl rfl rfl rfl rfl rfl rfl
theorem State.enterLockout_keeps {a : State} (s : State) (cause : BitVec 128) (hK : Keeps a s) :
    Keeps (a.inMode .lockout) (s.enterLockout cause) := by
  have h := State.moveMode_keeps s .lockout hK
  unfold State.enterLockout
  extract_lets s1
  have h1 : Keeps (a.inMode .lockout) s1 := by simp (maxDischargeDepth := 30) [s1, h]
  exact h1.of rfl rfl rfl rfl rfl rfl rfl
theorem mode_cases {a s : State} (h : Keeps a s) : s.mode = a.dev.mode := h.2.1
theorem State.actClass_moves {a : State} (s : State) (m : BitVec 128) (hK : Keeps a s) : Moves a (s.actClass m) := by
  have hm := mode_cases hK
  unfold State.actClass
  split
  · split
    · exact hK.moves
    next h => exact (State.enterLockout_keeps s m hK).moved (by
        revert h; rw [hm]; cases a.dev.mode <;> decide)
  · split
    · split
      next h => exact (State.enterSafe_keeps s m hK).moved (by
        revert h; unfold State.confRun; rw [hm]; cases a.dev.mode <;> decide)
      · exact hK.moves
    · exact hK.moves
theorem modeSetAct_moves {a : State} (queue : QueueNo) (target : Nat) (s : State) (hK : Keeps a s) : MovesR a (modeSetAct queue target s) := by
  have hm := mode_cases hK
  unfold modeSetAct
  dsimp only
  split
  · exact hK.moves
  next h =>
    have hc : a.dev.mode = .configure ∨ a.dev.mode = .run := by
      revert h; unfold State.confRun; rw [hm]; cases a.dev.mode <;> decide
    split
    · exact hK.moves
    next ht =>
      split
      next h2 => exact (State.toConfigure_keeps s hK).moved (by
        subst h2; rw [hm] at ht; rcases hc with e | e <;> rw [e] at ht ⊢ <;> revert ht <;> decide)
      · split
        next h3 =>
          split
          · exact (State.toRun_keeps s hK).moved (by
              subst h3; rw [hm] at ht; rcases hc with e | e <;> rw [e] at ht ⊢ <;> revert ht <;> decide)
          · exact hK.moves
        · exact (State.enterSafe_keeps _ _ (State.raise_keeps s _ _ _ _ _ hK)).moved (by
            rcases hc with e | e <;> rw [e] <;> decide)
theorem State.retireUnit_keeps {a : State} (s : State) (source : BitVec 16) (i : Nat) (f : State → State)
    (hf : ∀ x, Keeps a x → Keeps a (f x)) (hK : Keeps a s) : Keeps a (s.retireUnit source i f) := by
  unfold State.retireUnit
  split
  · exact hK
  · exact hf _ (by simp [hK])
@[simp] theorem State.retireBank_keeps {a0 : State} (s : State) (source : BitVec 16) (hK : Keeps a0 s) : Keeps a0 (s.retireBank source) :=
  State.retireUnit_keeps _ _ _ _ (fun x hx => by simp [hx]) hK
@[simp] theorem State.retireSpill_keeps {a0 : State} (s : State) (source : BitVec 16) (cell : Nat) (hK : Keeps a0 s) :
    Keeps a0 (s.retireSpill source cell) :=
  State.retireUnit_keeps _ _ _ _ (fun x hx => by simp [hx]) hK
@[simp] theorem State.retire_keeps {a0 : State} (s : State) (m : BitVec 128) (hK : Keeps a0 s) : Keeps a0 (s.retire m) := by
  have h := State.retireUnit_keeps s (BitVec.ofNat 16 (msgSource m)) (fld m 95 48 % 2 ^ 32) id (fun x hx => hx) hK
  unfold State.retire
  dsimp only
  (repeat' split) <;> first
    | with_reducible exact hK
    | with_reducible exact h
    | simp [hK]
@[simp] theorem State.recordRequest_keeps {a0 : State} (s : State) (sent final : BitVec 128) (hK : Keeps a0 s) :
    Keeps a0 (State.recordRequest s sent final) := by
  unfold State.recordRequest; simp [hK]
theorem State.collect_moves {a : State} (s : State) (m : BitVec 128) (hK : Keeps a s) : Moves a (s.collect m) := by
  unfold State.collect
  extract_lets r s1
  have h1 : Keeps a s1 := by simp (maxDischargeDepth := 30) [s1, r, hK]
  exact (State.actClass_moves _ _ (State.recordRequest_keeps _ _ _ h1)).after (State.postFault_keeps _ _ (Keeps.refl _))
theorem takeMessage_moves {a : State} (msg : Option (BitVec 128)) (s : State) (hK : Keeps a s) : Moves a (takeMessage msg s) := by
  unfold takeMessage
  (repeat' split) <;> first
    | exact hK.moves
    | exact State.collect_moves _ _ (by simp [hK])

@[simp] theorem State.unlatchSlice_keeps {a0 : State} (s : State) (sl : Nat) (hK : Keeps a0 s) : Keeps a0
    (State.unlatchSlice s sl) := by
  unfold State.unlatchSlice; simp [hK]
@[simp] theorem State.loseRegs_keeps {a0 : State} (s : State) (sl lo hi : Nat) (hK : Keeps a0 s) : Keeps a0
    (State.loseRegs s sl lo hi) := by
  unfold State.loseRegs; simp +contextual (maxDischargeDepth := 30) [hK]
@[simp] theorem State.loseBanks_keeps {a0 : State} (s : State) (d : Nat) (b : ScrubbedBank) (hK : Keeps a0 s) :
    Keeps a0 (State.loseBanks s d b) := by
  unfold State.loseBanks; simp +contextual (maxDischargeDepth := 30) [hK]
@[simp] theorem State.raiseRetention_keeps {a0 : State} (s : State) (d : Nat) (e : Nat × Nat × BitVec 32) (hK :
    Keeps a0 s) : Keeps a0 (State.raiseRetention s d e) := by
  unfold State.raiseRetention; simp [hK]
@[simp] theorem State.reportOn_keeps {a0 : State} (s : State) (d blocks : Nat) (mask : BitVec 32) (hK : Keeps a0 s) :
    Keeps a0 (State.reportOn s d blocks mask) := by
  unfold State.reportOn; simp [hK]
@[simp] theorem State.afterWake_keeps {a0 : State} (s : State) (d : Nat) (hK : Keeps a0 s) : Keeps a0
    (State.afterWake s d) := by
  unfold State.afterWake; simp +contextual (maxDischargeDepth := 30) [hK]
@[simp] theorem wakeDone_keeps {a0 : State} (d : Nat) (banks : List ScrubbedBank) (s : State) (hK : Keeps a0 s) :
    Keeps a0 (wakeDone d banks s) := by
  unfold wakeDone; simp +contextual (maxDischargeDepth := 30) [hK]

@[simp] theorem State.orphanAll_keeps {a0 : State} (s : State) (hK : Keeps a0 s) : Keeps a0 (State.orphanAll s) := by
  unfold State.orphanAll; simp +contextual (maxDischargeDepth := 30) [hK]
@[simp] theorem State.dropRings_keeps {a0 : State} (s : State) (hK : Keeps a0 s) : Keeps a0 (State.dropRings s) := by
  unfold State.dropRings; simp +contextual (maxDischargeDepth := 30) [hK]
@[simp] theorem State.stopStrainers_keeps {a0 : State} (s : State) (hK : Keeps a0 s) : Keeps a0 (State.stopStrainers s) := by
  unfold State.stopStrainers; simp +contextual (maxDischargeDepth := 30) [hK]
@[simp] theorem State.resetHostIf_keeps {a0 : State} (s : State) (cause : Nat) (hK : Keeps a0 s) : Keeps a0
    (State.resetHostIf s cause) := by
  unfold State.resetHostIf; simp +contextual (maxDischargeDepth := 30) [hK]
@[simp] theorem hostReset_keeps {a0 : State} (cause : HostResetCause) (s : State) (hK : Keeps a0 s) : Keeps a0
    (hostReset cause s) := by
  unfold hostReset; simp [hK]
@[simp] theorem State.enterBoot_keeps {a : State} (s : State) (step : BitVec 4) (hK : Keeps a s) : Keeps (a.inMode .boot) (s.enterBoot step) := by
  have h := Keeps.setMode .boot hK
  unfold State.enterBoot
  extract_lets s1 d0 d1 s2 s3
  have h2 : Keeps (a.inMode .boot) s2 := h.of rfl rfl rfl rfl rfl rfl rfl
  clear_value s2
  have h3 : Keeps (a.inMode .boot) s3 := Keeps.nats _ _ h2 fun y hy d => by simp [hy]
  exact State.agents_keeps _ (Keeps.nats _ _ h3 fun y hy d => by simp [hy])
theorem ioam_zero : fld (0 : BitVec 192) 71 64 = 0 ∧ fld (0 : BitVec 192) 31 1 = 0 := by decide
theorem gens_bump {V : Type} (t : Tbl V) (spare : Nat → Bool) : ∀ g : Tbl (BitVec 8), g.all (fun e => e.2 != 0) = true →
    (bumpGens t g spare).all (fun e => e.2 != 0) = true := by
  unfold bumpGens
  induction t with
  | nil => intro g h; exact h
  | cons x t ih =>
    intro g h
    refine ih _ ?_
    dsimp only
    split
    · exact h
    · exact gens_ins _ _ _ h
theorem State.warmReset_moves {a : State} (s : State) (src : BitVec 4) (hK : Keeps a s) : Moves a (s.warmReset src) := by
  have hm := mode_cases hK
  unfold State.warmReset
  split
  · exact hK.moves
  next hn =>
    have h1 : Keeps a (if s.mode == .run then s.endAllTx else s) := by simp [hK]
    dsimp only
    generalize (if s.mode == .run then s.endAllTx else s) = s1 at h1 ⊢
    have hb : modeArrow a.dev.mode .boot = true := by revert hn; rw [hm]; cases a.dev.mode <;> decide
    refine Keeps.moved hb (State.enterBoot_keeps _ _ ?_)
    refine ⟨h1.1, h1.2.1, fun x => ?_⟩
    have y := h1.2.2 x
    exact ⟨Map.wf_filter (V := BitVec 64) 0 
      (fun e => (!inRange (e.1 / 512) 0x101 0x200 || inRange (e.1 % 512) 9 10) && !inRange (e.1 / 512) 0x400 0x7FF) y.counters,
      gens_bump s1.ports (fun _ => false) s1.portGen y.gens, y.svn, ioam_zero, rfl⟩
theorem writeRstCtl_moves {a : State} (v : BitVec 32) (s : State) (hK : Keeps a s) : Moves a (writeRstCtl v s) := by
  unfold writeRstCtl
  (repeat' split) <;> first
    | exact hK.moves
    | exact State.warmReset_moves _ _ hK
    | exact Keeps.moves (by simp [hK])
/-- What a reset that removes power leaves: the queue of commands, and a sound state in RESET. -/
theorem State.powerReset_sound (s : State) (src : BitVec 4) (valid : Bool) (rail : BitVec 3) (h : Sound s) :
    Sound (s.powerReset src valid rail) := ⟨rfl, rfl, h.svn, ioam_zero, rfl⟩
theorem supplyReset_sound (rail : BitVec 3) (s : State) (h : Sound s) : Sound (supplyReset rail s) := by
  unfold supplyReset
  dsimp only
  split
  · exact State.powerReset_sound s 2 false 0 h
  · have y := State.powerReset_sound s 2 true rail h
    exact ⟨y.counters, y.gens, y.svn, y.ioam, y.synce⟩
@[simp] theorem supplyReset_mode (rail : BitVec 3) (s : State) : (supplyReset rail s).dev.mode = .reset := by
  unfold supplyReset; dsimp only; split <;> rfl
@[simp] theorem supplyReset_pending (rail : BitVec 3) (s : State) : (supplyReset rail s).pending = s.pending := by
  unfold supplyReset; dsimp only; split <;> rfl
theorem mayLeave_mode {a s : State} (hK : Keeps a s) (h : mayLeaveReset s = true) : a.dev.mode = .reset := by
  rw [← mode_cases hK]; unfold mayLeaveReset at h; simp at h; exact h.1.1.1
theorem State.leave_moves {a : State} (s : State) (hK : Keeps a s) (h : mayLeaveReset s = true) : Moves a (s.enterBoot 1) :=
  (State.enterBoot_keeps s 1 hK).moved (by rw [mayLeave_mode hK h]; decide)
theorem leaveReset_moves {a : State} (s : State) (hK : Keeps a s) : Moves a (leaveReset s) := by
  unfold leaveReset
  dsimp only
  split
  · split
    next h => exact State.leave_moves _ (by simp [hK]) h
    · exact Keeps.moves (by simp [hK])
  · exact hK.moves
theorem resetLow_moves {a : State} (s : State) (hK : Keeps a s) : Moves a (resetLow s) := by
  unfold resetLow
  split
  · exact hK.moves
  · exact State.warmReset_moves _ _ (by simp [hK])
theorem resetRise_moves {a : State} (s : State) (hK : Keeps a s) : Moves a (resetRise s) := by
  unfold resetRise
  extract_lets d0 s1
  have h1 : Keeps a s1 := hK.of rfl rfl rfl rfl rfl rfl rfl
  split
  next h => exact State.leave_moves _ h1 h
  · split
    · exact Keeps.moves (h1.of rfl rfl rfl rfl rfl rfl rfl)
    · exact h1.moves
theorem perstLow_moves {a : State} (s : State) (hK : Keeps a s) : Moves a (perstLow s) := by
  unfold perstLow
  split
  · exact hK.moves
  · extract_lets d0 s1 d1 s2
    have h1 : Keeps a s1 := hK.of rfl rfl rfl rfl rfl rfl rfl
    have h2 : Keeps a s2 := h1.of rfl rfl rfl rfl rfl rfl rfl
    (repeat' split) <;> first
      | exact h1.moves
      | exact h2.moves
      | exact State.warmReset_moves _ _ h2
      | exact (State.resetHostIf_keeps _ _ h2).moves
@[simp] theorem perstHigh_keeps {a0 : State} (s : State) (hK : Keeps a0 s) : Keeps a0 (perstHigh s) := by
  unfold perstHigh; simp [hK]
@[simp] theorem refclkLost_keeps {a0 : State} (g : Nat) (s : State) (hK : Keeps a0 s) : Keeps a0 (refclkLost g s) := by
  unfold refclkLost; simp +contextual (maxDischargeDepth := 30) [hK]
theorem refclkBack_moves {a : State} (g : Nat) (s : State) (hK : Keeps a s) : Moves a (refclkBack g s) := by
  unfold refclkBack
  extract_lets d0 s1
  have h1 : Keeps a s1 := hK.of rfl rfl rfl rfl rfl rfl rfl
  split
  · exact hK.moves
  · split
    next h => exact State.leave_moves _ h1 h
    · split
      · exact h1.moves
      · exact Keeps.moves (Keeps.nats _ _ h1 fun y hy d => by simp [hy])
@[simp] theorem State.countLost_keeps {a0 : State} (s : State) (link : D2dLink) (n : Nat) (hK : Keeps a0 s) : Keeps a0
    (State.countLost s link n) := by
  unfold State.countLost; simp [hK]
@[simp] theorem State.loseOnLink_keeps {a : State} (s : State) (l : D2dLink) (hK : Keeps a s) : Keeps a (s.loseOnLink l) := by
  cases l with
  | core q x => unfold State.loseOnLink; dsimp only; split <;> simp (maxDischargeDepth := 30) [hK]
  | chiplet c => exact State.countLost_keeps _ _ _ (Keeps.nats _ _ hK fun y hy d => by simp [hy])
@[simp] theorem d2dError_keeps {a0 : State} (link : D2dLink) (err : D2dError) (s : State) (hK : Keeps a0 s) : Keeps a0 (d2dError link err s) := by
  unfold d2dError
  (repeat' split) <;> simp [hK]

@[simp] theorem State.retireTested_keeps {a0 : State} (s : State) (u : TestedUnit) (hK : Keeps a0 s) : Keeps a0 (s.retireTested u) := by
  unfold State.retireTested
  split
  · exact Keeps.nats _ _ hK fun y hy d => State.retireUnit_keeps _ _ _ _ (fun x hx => hx) hy
  · simp [hK]
theorem testUnits_keeps {a : State} (l : List TestedUnit) : ∀ r : State × Tested, Keeps a r.1 → Keeps a (l.foldl testUnit r).1 := by
  induction l with
  | nil => intro r h; exact h
  | cons u l ih => intro r h; refine ih _ ?_; unfold testUnit; split <;> simp [h]
@[simp] theorem State.judgeTest_keeps {a0 : State} (s : State) (found : SelfTestResult) (hK : Keeps a0 s) : Keeps a0 (s.judgeTest found).1 := by
  unfold State.judgeTest
  extract_lets r bad s1 d
  have hr : Keeps a0 r.1 := testUnits_keeps _ _ hK
  have h1 : Keeps a0 s1 := by simp [s1, hr]
  dsimp only
  split
  · exact h1.of rfl rfl rfl rfl rfl rfl rfl
  · exact h1
@[simp] theorem State.loadStores_keeps {a0 : State} (s : State) (b : List Byte) (hK : Keeps a0 s) : Keeps a0
    (State.loadStores s b) := by
  unfold State.loadStores; simp +contextual (maxDischargeDepth := 30) [hK]
@[simp] theorem State.testMemories_keeps {a0 : State} (s : State) (hK : Keeps a0 s) : Keeps a0 (State.testMemories s) := by
  unfold State.testMemories; simp +contextual (maxDischargeDepth := 30) [hK]
@[simp] theorem State.reloadStores_keeps {a0 : State} (s : State) (hK : Keeps a0 s) : Keeps a0 (State.reloadStores s) := by
  unfold State.reloadStores; (repeat' split) <;> simp_all +contextual (maxDischargeDepth := 30)
@[simp] theorem runSelfTest_keeps {a0 : State} (buf : Addr) (found : SelfTestResult) (s : State) (hK : Keeps a0 s) :
    KeepsR a0 (runSelfTest buf found s) := by
  unfold runSelfTest; simp +contextual (maxDischargeDepth := 30) [hK]
@[simp] theorem State.bootFail_keeps {a0 : State} (s : State) (source code unit : Nat) (hK : Keeps a0 s) : Keeps a0
    (State.bootFail s source code unit) := by
  unfold State.bootFail; simp [hK]
@[simp] theorem State.bootKeys_keeps {a0 : State} (s : State) (b : List Byte) (hK : Keeps a0 s) : Keeps a0 (s.bootKeys b) := by
  unfold State.bootKeys
  extract_lets c0 d0 s1 c1 d1 s2
  have h1 : Keeps a0 s1 := hK.of rfl rfl rfl rfl rfl rfl rfl
  have h2 : Keeps a0 s2 := h1.of rfl rfl rfl rfl rfl rfl rfl
  clear_value s2
  split
  · exact ⟨h2.1, h2.2.1, fun x => let y := h2.2.2 x; ⟨y.counters, y.gens, Nat.min_le_right _ _, y.ioam, y.synce⟩⟩
  · exact h2
@[simp] theorem State.bootEpoch_keeps {a0 : State} (s : State) (hK : Keeps a0 s) : Keeps a0 (State.bootEpoch s) := by
  unfold State.bootEpoch; simp +contextual (maxDischargeDepth := 30) [hK]
theorem State.endBoot_keeps {a : State} (s : State) (hK : Keeps a s) : Keeps (a.inMode .configure) s.endBoot := by
  have h := Keeps.setMode .configure hK
  unfold State.endBoot
  extract_lets s1 d0 s2 s3
  have h2 : Keeps (a.inMode .configure) s2 := State.initialVersion_keeps _ (h.of rfl rfl rfl rfl rfl rfl rfl)
  clear_value s2
  have h3 : Keeps (a.inMode .configure) s3 := Keeps.nats _ _ h2 fun y hy d => by simp [hy]
  exact State.agents_keeps _ (Keeps.nats _ _ (State.bootEpoch_keeps _ h3) fun y hy d => by simp [hy])
theorem State.loadBundle_moves {a : State} (s : State) (b : List Byte) (pcie : Bool) (r : LoadResult) (hm : a.dev.mode = .boot)
    (hK : Keeps a s) : Moves a (s.loadBundle b pcie r) := by
  unfold State.loadBundle
  extract_lets d0 s1 d1 s2
  have h1 : Keeps a s1 := State.loadStores_keeps _ _ (hK.of rfl rfl rfl rfl rfl rfl rfl)
  have h2 : Keeps a s2 := h1.of rfl rfl rfl rfl rfl rfl rfl
  clear_value s2
  split
  · exact Keeps.moves (by simp [h1])
  · exact Keeps.moves (by simp [h1])
  · exact Keeps.moves (by simp [h2])
  · exact (State.endBoot_keeps _ (State.bootKeys_keeps _ _ h2)).moved (by rw [hm]; decide)
@[simp] theorem State.obtain_keeps {a0 : State} (s : State) (hK : Keeps a0 s) : Keeps a0 (State.obtain s) := by
  unfold State.obtain; (repeat' split) <;> simp_all +contextual (maxDischargeDepth := 30)
@[simp] theorem State.bootTest_keeps {a0 : State} (s : State) (found : SelfTestResult) (hK : Keeps a0 s) : Keeps a0
    (State.bootTest s found) := by
  unfold State.bootTest; simp +contextual (maxDischargeDepth := 30) [hK]
@[simp] theorem startBoot_keeps {a0 : State} (bootSrc testMode otpGood : Bool) (found : SelfTestResult) (s : State)
    (hK : Keeps a0 s) : Keeps a0 (startBoot bootSrc testMode otpGood found s) := by
  unfold startBoot; simp +contextual (maxDischargeDepth := 30) [hK]
theorem bundleLoaded_moves {a : State} (r : LoadResult) (s : State) (hK : Keeps a s) : Moves a (bundleLoaded r s) := by
  have hm := mode_cases hK
  unfold bundleLoaded
  split
  · exact hK.moves
  next h =>
    split
    · exact State.loadBundle_moves _ _ _ _ (by rw [← hm]; simpa using h) hK
    · exact hK.moves
theorem loadAct_moves {a : State} (data : HostData) (r : LoadResult) (s : State) (hK : Keeps a s) : MovesR a (loadAct data r s) := by
  have hm := mode_cases hK
  unfold loadAct
  split
  · exact hK.moves
  next h =>
    have hb : a.dev.mode = .boot := by
      rw [← hm]; unfold bootWaits at h; simp at h; exact h.1.1.1
    (repeat' split) <;> first
      | exact hK.moves
      | exact State.loadBundle_moves _ _ _ _ hb (by simp [hK])
@[simp] theorem State.setFlash_keeps {a : State} (s : State) (slot : Bool) (b : List Byte) (r : Option (Bool × List Byte))
    (hK : Keeps a s) : Keeps a (s.setFlash slot b r) := by
  cases slot <;> simp [State.setFlash, hK]
@[simp] theorem updateFlash_keeps {a0 : State} (data : HostData) (s : State) (hK : Keeps a0 s) : KeepsR a0
    (updateFlash data s) := by
  unfold updateFlash; dsimp only; (repeat' split) <;> simp_all +contextual (maxDischargeDepth := 30)
@[simp] theorem endUpdate_keeps {a0 : State} (s : State) (hK : Keeps a0 s) : KeepsR a0 (endUpdate s) := by
  unfold endUpdate; split <;> simp [hK]

@[simp] theorem writeDomCfg_keeps {a0 : State} (v : BitVec 32) (s : State) (hK : Keeps a0 s) : Keeps a0 (writeDomCfg
    v s) := by
  unfold writeDomCfg; simp +contextual (maxDischargeDepth := 30) [hK]
@[simp] theorem State.discardWrite_keeps {a0 : State} (s : State) (source base : Nat) (hK : Keeps a0 s) : Keeps a0
    (State.discardWrite s source base) := by
  unfold State.discardWrite; simp [hK]
@[simp] theorem setTelem_keeps {a0 : State} (p v : Nat) (s : State) (hK : Keeps a0 s) : Keeps a0 (setTelem p v s) := by
  unfold setTelem; simp [hK]
@[simp] theorem setPcCfg_keeps {a0 : State} (sl v : Nat) (s : State) (hK : Keeps a0 s) : Keeps a0 (setPcCfg sl v s) := by
  unfold setPcCfg; simp [hK]
@[simp] theorem setAudCfg_keeps {a0 : State} (v : Nat) (s : State) (hK : Keeps a0 s) : Keeps a0 (setAudCfg v s) := by
  unfold setAudCfg; simp +contextual (maxDischargeDepth := 30) [hK]
@[simp] theorem setPages_keeps {a0 : State} (n v : Nat) (s : State) (hK : Keeps a0 s) : Keeps a0 (setPages n v s) := by
  unfold setPages; simp [hK]
@[simp] theorem State.modTaw_keeps {a0 : State} (s : State) (f : Taw → Taw) (hK : Keeps a0 s) : Keeps a0
    (State.modTaw s f) := by
  unfold State.modTaw; simp [hK]
/-- A register whose write makes no mode transition but those of Table 16.6. -/
def Reg.Ok (a : State) (r : Reg) : Prop := ∀ v s, Keeps a s → Moves a (r.apply v s)
def Target.Ok (a : State) : Target → Prop
  | .nothing => True
  | .readOnly _ _ => True
  | .reg r => r.Ok a
theorem plainReg_moves {a : State} (base dwords source current : Nat) (takes : Bool) (mask : Nat) (bad : Nat → Bool)
    (set : Nat → State → State) (hs : ∀ v s, bad v = false → Keeps a s → Keeps a (set (v &&& mask) s)) :
    (plainReg base dwords source current takes mask bad set).Ok a := by
  intro v s hK
  unfold plainReg
  dsimp only
  split
  · exact Keeps.moves (by simp [hK])
  next h => exact (hs v s (by simpa using h) hK).moves
theorem plainReg_keeps {a : State} (base dwords source current : Nat) (takes : Bool) (mask : Nat) (bad : Nat → Bool)
    (set : Nat → State → State) (hs : ∀ v s, Keeps a s → Keeps a (set v s)) :
    (plainReg base dwords source current takes mask bad set).Ok a := plainReg_moves _ _ _ _ _ _ _ _ fun v s _ h => hs _ s h
theorem Target.Ok.ite {a : State} {c : Prop} [Decidable c] {x y : Target} (hx : x.Ok a) (hy : y.Ok a) : (if c then x else y).Ok a := by
  split <;> assumption
def RegOk (a : State) : Option Reg → Prop
  | none => True
  | some r => r.Ok a
theorem RegOk.ite {a : State} {c : Prop} [Decidable c] {x y : Option Reg} (hx : RegOk a x) (hy : RegOk a y) : RegOk a (if c then x else y) := by
  split <;> assumption
theorem portReg_moves {a : State} (s : State) (p o : Nat) : RegOk a (portReg s p o) := by
  unfold portReg
  dsimp only
  repeat' with_reducible refine RegOk.ite ?_ ?_
  all_goals first
    | trivial
    | (refine plainReg_keeps _ _ _ _ _ _ _ _ fun v s h => ?_; simp [h]; done)
    | (refine fun v s h => Keeps.moves ?_; simp [h]; done)
theorem sliceTarget_moves {a : State} (s : State) (sl o : Nat) : (sliceTarget s sl o).Ok a := by
  unfold sliceTarget
  dsimp only
  repeat' with_reducible refine Target.Ok.ite ?_ ?_
  all_goals first
    | trivial
    | (refine plainReg_keeps _ _ _ _ _ _ _ _ fun v s h => ?_; simp [h]; done)
    | (have h := portReg_moves (a := a) s (64 * sl + o / 0x400) (o % 0x400)
       split <;> simp_all [RegOk, Target.Ok])
theorem identityTarget_moves {a : State} (s : State) (o : Nat) : (identityTarget s o).Ok a := by
  unfold identityTarget
  repeat' with_reducible refine Target.Ok.ite ?_ ?_
  all_goals first
    | trivial
    | (refine fun v s h => writeRstCtl_moves _ _ ?_; exact h)
    | (refine fun v s h => Keeps.moves ?_; simp [h]; done)
theorem tawTarget_moves {a : State} (s : State) (o : Nat) : (tawTarget s o).Ok a := by
  unfold tawTarget
  repeat' with_reducible refine Target.Ok.ite ?_ ?_
  all_goals first
    | trivial
    | (refine fun v s h => Keeps.moves ?_; simp [h]; done)
    | (refine fun v s h => Keeps.moves ?_; dsimp only; split <;> simp [h])
theorem timeTarget_moves {a : State} (s : State) (o : Nat) : (timeTarget s o).Ok a := by
  unfold timeTarget
  dsimp only
  repeat' with_reducible refine Target.Ok.ite ?_ ?_
  all_goals first
    | trivial
    | (refine fun v s h => Keeps.moves ?_; simp [h]; done)
theorem adminTarget_moves {a : State} (s : State) (o : Nat) : (adminTarget s o).Ok a := by
  unfold adminTarget baseReg
  dsimp only
  repeat' with_reducible refine Target.Ok.ite ?_ ?_
  all_goals first
    | trivial
    | (refine plainReg_keeps _ _ _ _ _ _ _ _ fun v s h => ?_; simp [h]; done)
    | (refine fun v s h => Keeps.moves ?_; simp [h]; done)
theorem strainerTarget_moves {a : State} (s : State) (q o : Nat) : (strainerTarget s q o).Ok a := by
  unfold strainerTarget baseReg
  dsimp only
  repeat' with_reducible refine Target.Ok.ite ?_ ?_
  all_goals first
    | trivial
    | (refine plainReg_keeps _ _ _ _ _ _ _ _ fun v s h => ?_; simp [h]; done)
    | (refine fun v s h => Keeps.moves ?_; simp [h]; done)
theorem powerTarget_moves {a : State} (s : State) (o : Nat) : (powerTarget s o).Ok a := by
  unfold powerTarget
  dsimp only
  repeat' with_reducible refine Target.Ok.ite ?_ ?_
  all_goals first
    | trivial
    | (refine plainReg_keeps _ _ _ _ _ _ _ _ fun v s h => ?_; simp [h]; done)
theorem fld_masked (n v m hi lo : Nat) (h : ∀ i < hi + 1 - lo, m.testBit (lo + i) = false) : fld (BitVec.ofNat n (v &&& m)) hi lo = 0 := by
  apply Nat.eq_of_testBit_eq
  intro i
  simp only [fld, BitVec.toNat_ofNat, Nat.testBit_mod_two_pow, Nat.testBit_shiftRight, Nat.testBit_and, Nat.zero_testBit]
  by_cases hj : i < hi + 1 - lo
  · simp [h i hj]
  · simp [hj]
/-- What IOAM_CFG keeps of a write. -/
theorem ioam_masked (v : Nat) : fld (BitVec.ofNat 192 (v &&& (2 ^ 192 - 2 ^ 72 + (2 ^ 64 - 2 ^ 32) + 1))) 71 64 = 0 ∧
    fld (BitVec.ofNat 192 (v &&& (2 ^ 192 - 2 ^ 72 + (2 ^ 64 - 2 ^ 32) + 1))) 31 1 = 0 :=
  ⟨fld_masked _ _ _ _ _ (by decide), fld_masked _ _ _ _ _ (by decide)⟩
theorem fld_kept (n v m hi lo : Nat) (hn : hi < n) (h : ∀ i < hi + 1 - lo, m.testBit (lo + i) = true) :
    fld (BitVec.ofNat n (v &&& m)) hi lo = (v >>> lo) % 2 ^ (hi + 1 - lo) := by
  apply Nat.eq_of_testBit_eq
  intro i
  simp only [fld, BitVec.toNat_ofNat, Nat.testBit_mod_two_pow, Nat.testBit_shiftRight, Nat.testBit_and]
  by_cases hj : i < hi + 1 - lo
  · have hk : lo + i < n := by omega
    simp [h i hj, hj, hk]
  · simp [hj]
/-- What SYNCE_CFG keeps of a write it takes. -/
theorem synce_masked (v : Nat) (h : inRange (v % 8192) 16 4096 = true) : synceOk (BitVec.ofNat 32 (v &&& 0x83FF1FFF)) = true := by
  unfold synceOk
  rw [fld_kept 32 v _ 12 0 (by decide) (by decide), fld_masked 32 v _ 15 13 (by decide), fld_masked 32 v _ 30 26 (by decide)]
  simpa using h
theorem hubTarget_moves {a : State} (s : State) (o : Nat) : (hubTarget s o).Ok a := by
  unfold hubTarget
  dsimp only
  repeat' with_reducible refine Target.Ok.ite ?_ ?_
  all_goals first
    | trivial
    | (refine plainReg_keeps _ _ _ _ _ _ _ _ fun v s h => ?_; simp [h]; done)
    | (refine plainReg_moves _ _ _ _ _ _ _ _ fun v s hv h => ⟨h.1, h.2.1, fun x => ?_⟩
       have y := h.2.2 x
       exact ⟨y.counters, y.gens, y.svn, ioam_masked v, y.synce⟩)
    | (refine plainReg_moves _ _ _ _ _ _ _ _ fun v s hv h => ⟨h.1, h.2.1, fun x => ?_⟩
       have y := h.2.2 x
       refine ⟨y.counters, y.gens, y.svn, y.ioam, ?_⟩
       rw [List.all_eq_true]
       intro e he
       have hi : inRange (v % 8192) 16 4096 = true := by
         unfold badSynce at hv; simp only [Bool.or_eq_false_iff, Bool.not_eq_false'] at hv; exact hv.1
       dsimp only [Map.put] at he
       split at he
       · exact (List.all_eq_true.1 y.synce) e (Map.mem_del he)
       · rcases Map.mem_ins he with rfl | m
         · exact synce_masked v hi
         · exact (List.all_eq_true.1 y.synce) e m)
theorem targetAt_moves {a : State} (s : State) (o : Nat) : (targetAt s o).Ok a := by
  unfold targetAt
  dsimp only
  repeat' with_reducible refine Target.Ok.ite ?_ ?_
  all_goals first
    | with_reducible exact identityTarget_moves _ _
    | with_reducible exact tawTarget_moves _ _
    | with_reducible exact timeTarget_moves _ _
    | with_reducible exact adminTarget_moves _ _
    | with_reducible exact strainerTarget_moves _ _ _
    | with_reducible exact hubTarget_moves _ _
    | with_reducible exact powerTarget_moves _ _
    | with_reducible exact sliceTarget_moves _ _ _
    | trivial
    | (refine fun v s h => Keeps.moves ?_; simp [h]; done)
theorem State.writeDword_moves {a : State} (s : State) (o : Nat) (v : BitVec 32) (hK : Keeps a s) : Moves a (s.writeDword o v) := by
  have ht := targetAt_moves (a := a) s o
  unfold State.writeDword
  split
  · exact hK.moves
  · exact Keeps.moves (by simp [hK])
  next r hr =>
    rw [hr] at ht
    split
    · exact Keeps.moves (by simp [hK])
    · split
      · exact ht _ _ hK
      · exact Keeps.moves (by simp [hK])
theorem writeRegister_moves {a : State} (offset : BitVec 24) (enables : BitVec 4) (value : BitVec 32) (s : State) (hK : Keeps a s) :
    Moves a (writeRegister offset enables value s) := by
  unfold writeRegister
  dsimp only
  (repeat' split) <;> first
    | exact hK.moves
    | exact Keeps.moves (by simp [hK])
    | exact State.writeDword_moves _ _ _ hK

end Sys2Proof.Machine
end

