-- ==== Sys2Proof/WellFormed.lean ====
section
/-! DEFINITION. Well-formed commands: operands that the environment can supply. A buffer that was read has the length that was
asked for, every number names a thing that can exist on the largest member, and what a link or ring carries has the
shape of its kind. -/

namespace Sys2Proof

/-- A queue or ring number: 0 to 256 (R291). -/
def wfQueue (q : QueueNo) : Bool := decide (q.toNat ≤ 256)

/-- A submission by a queue that can exist, within a ring of at most 2^16 entries. -/
def wfSub (x : Sub) : Bool := wfQueue x.queue

/-- A buffer read that succeeded returned the bytes asked for (R286). -/
def wfData (len : Nat) (d : HostData) : Bool := d.all (fun b => b.length == len)

/-- A power domain, and a reference or chiplet number (R358, R394). -/
def wfDom (d : BitVec 6) : Bool := decide (d.toNat < 48)
def wfRef (g : BitVec 4) : Bool := decide (g.toNat < 9)

/-- A read of a submission ring returns at most the 8 entries of the read window (R298). -/
def wfRead (r : Option (List Entry)) : Bool := r.all (fun l => decide (l.length ≤ 8))

/-- A retried read names a queue, ring or Strainer that can exist, and reads no more than the window (R286, R298). -/
def wfRetry (ring : QueueNo) : RetriedRead → Bool
  | .submission read => wfQueue ring && wfRead read
  | .completion _ => wfQueue ring
  | .event _ => wfQueue ring
  | .records _ => decide (ring.toNat = 0)
  | .notice _ => decide (ring.toNat < 4)

/-- The units that a self-test names in SOURCE order (R383). -/
def wfUnits : List TestedUnit → Bool
  | [] => true
  | [_] => true
  | a :: b :: l => decide (a.source.toNat ≤ b.source.toNat) && wfUnits (b :: l)

/-- A frame has bytes. -/
def wfFrame (r : RxFrame) : Bool := !r.bytes.isEmpty

/-- A capture lags by at most 24 words or frames, in a unit of Table 13.6 (R337). -/
def wfCapture (c : Capture) : Bool := decide (c.skid.toNat ≤ 24) && decide (c.unit_.toNat ≤ 10)

/-- A scrubbed bank covers a range of indices. -/
def wfBanks (l : List ScrubbedBank) : Bool := l.all (fun b => decide (b.first ≤ b.last))

/-- A well-formed command. -/
def Instr.wf : Instr → Bool
  | .nop x => wfSub x
  | .modeSet x _ => wfSub x
  | .queueCreate x _ _ _ _ _ _ _ _ _ => wfSub x
  | .queueDestroy x _ => wfSub x
  | .cqCreate x _ _ _ _ _ _ => wfSub x
  | .cqDestroy x _ => wfSub x
  | .protSet x _ _ => wfSub x
  | .queueStatusGet x _ => wfSub x
  | .portCreate x _ _ _ => wfSub x
  | .portDestroy x _ => wfSub x
  | .portStatusGet x _ => wfSub x
  | .portAttrSet x _ _ => wfSub x
  | .portHoldClear x _ => wfSub x
  | .laneStatusGet x _ _ _ => wfSub x
  | .laneCfgSet x _ _ _ _ _ _ _ _ _ => wfSub x
  | .laneCfgGet x _ _ => wfSub x
  | .laneAdaptCtl x _ _ _ => wfSub x
  | .laneRetireClear x _ _ => wfSub x
  | .laneSerCfg x _ _ _ => wfSub x
  | .hostAdd x _ => wfSub x
  | .hostDelete x _ => wfSub x
  | .search x _ _ _ _ => wfSub x
  | .next x _ _ _ _ _ => wfSub x
  | .flushByPort x _ _ _ _ => wfSub x
  | .lpmAdd x _ _ _ _ => wfSub x
  | .lpmDelete x _ _ _ _ => wfSub x
  | .tableInfo x _ _ => wfSub x
  | .rulesetOpen x => wfSub x
  | .rulesetCommit x _ _ => wfSub x
  | .rulesetAbort x => wfSub x
  | .versionStatusGet x => wfSub x
  | .keyProfileSet x _ _ _ => wfSub x
  | .parseNodeSet x _ => wfSub x
  | .csStageLoad x _ len _ d => wfSub x && wfData len.toNat d
  | .flowProfileSet x _ _ d => wfSub x && wfData 64 d
  | .flowProfileGet x _ _ => wfSub x
  | .flowInstall x _ _ d => wfSub x && wfData 128 d
  | .flowDelete x _ => wfSub x
  | .flowGet x _ _ _ => wfSub x
  | .flowStatusGet x _ => wfSub x
  | .bufClassSet x _ _ _ => wfSub x
  | .bufClassGet x _ _ => wfSub x
  | .voqFlush x _ => wfSub x
  | .gateListSet x _ _ n _ _ d => wfSub x && wfData (8 * n.toNat) d
  | .gateListGet x _ _ _ => wfSub x
  | .gateListAbort x _ => wfSub x
  | .ptpTx x _ _ len _ _ _ _ _ d => wfSub x && wfData len.toNat d
  | .tsCalGet x _ => wfSub x
  | .audCertGet x _ _ => wfSub x
  | .audBufPost x _ _ _ => wfSub x
  | .audBufReclaim x _ => wfSub x
  | .audStatusGet x _ => wfSub x
  | .ctrSnapshot x _ _ _ => wfSub x
  | .sctrSet x _ _ _ _ _ => wfSub x
  | .sctrGet x _ => wfSub x
  | .faultAck x _ => wfSub x
  | .faultListGet x _ _ => wfSub x
  | .faultWindowSet x _ _ _ => wfSub x
  | .faultInject x _ => wfSub x
  | .pwrVote x _ _ => wfSub x
  | .pwrStatusGet x _ => wfSub x
  | .selfTest x _ _ found => wfSub x && wfUnits found.units
  | .eyeScanStart x _ _ _ _ _ _ _ _ _ _ _ _ _ => wfSub x
  | .eyeScanStatus x _ _ => wfSub x
  | .eyeScanAbort x _ _ => wfSub x
  | .laneTestCtl x _ _ _ _ _ _ _ => wfSub x
  | .bundleLoad x _ len d _ => wfSub x && wfData len.toNat d
  | .bundleInfoGet x => wfSub x
  | .flashUpdate x _ len d => wfSub x && wfData len.toNat d
  | .tawRead _ _ => true
  | .tawWrite _ _ => true
  | .tawDelete _ _ => true
  | .registerWrite _ _ _ => true
  | .domCfgWrite _ => true
  | .portEnable _ _ => true
  | .portDisable _ _ => true
  | .puntMeterWrite _ _ => true
  | .sampleCfgWrite _ _ => true
  | .timeIncWrite _ => true
  | .timeAdjWrite _ => true
  | .timeSet _ _ => true
  | .timeCtlWrite _ => true
  | .timeNowLatch => true
  | .ppsInLatch => true
  | .ppsInLatchRelease => true
  | .fwStatusLatch => true
  | .pwrResetCauseRead => true
  | .adminEnable _ => true
  | .adminDisable _ => true
  | .strainerEnable _ _ => true
  | .strainerDisable _ _ => true
  | .flush _ => true
  | .rstCtlWrite _ => true
  | .resetNLow => true
  | .resetNRise => true
  | .perstAssert => true
  | .hostIfReset _ => true
  | .powerOn => true
  | .resetExit => true
  | .bootStart _ _ _ found => wfUnits found.units
  | .bootBundleLoaded _ => true
  | .signalDetectAssert _ => true
  | .signalDetectDeassert _ => true
  | .autonegComplete _ => true
  | .trainComplete _ presets taps => decide (presets.length ≤ 8) && decide (taps.length ≤ 8)
  | .alignLock _ skews => decide (skews.length ≤ 8)
  | .alignmentLost _ => true
  | .rsFaultReceived _ _ => true
  | .linkUp _ => true
  | .stampCalibration _ _ _ _ => true
  | .trainTimeoutExpiry _ => true
  | .alignTimeout _ => true
  | .backoffExpiry _ => true
  | .recoverEntry _ => true
  | .recoverExit _ => true
  | .recoverTimeout _ => true
  | .freezeTimeout _ => true
  | .testAcquired _ _ => true
  | .serWindowEnd _ corrected symbols => decide (corrected ≤ symbols)
  | .flapHoldDown _ => true
  | .holdTimeExpiry _ => true
  | .eyeScanPointDone _ errors compared => decide (errors ≤ compared)
  | .frameReceive rx => wfFrame rx
  | .pfcReceive _ _ quanta _ => quanta.length == 8
  | .pauseReceive _ _ _ => true
  | .pauseExpiry _ _ => true
  | .pfcStorm _ _ => true
  | .pfcStormEnd _ _ => true
  | .pfcXoffRepeat _ _ => true
  | .infuserHeader _ _ => true
  | .fetchReturn _ _ _ => true
  | .flowFetchTimeout _ _ => true
  | .flowSweep _ => true
  | .learnRequest _ => true
  | .moveWindowBoundary => true
  | .ageSweep => true
  | .csParityRepair _ _ _ _ => true
  | .tableParityRepair _ _ _ _ => true
  | .commitResume => true
  | .commitWaitLimit => true
  | .versionDrained => true
  | .verDrainSlow => true
  | .grant _ _ => true
  | .fabricCell _ _ => true
  | .fabricSeqTimeout _ _ => true
  | .planeFail _ plane => decide (plane.toNat < 6)
  | .transmitDecision _ _ _ => true
  | .frameTransmit _ _ _ => true
  | .spillReadback _ _ _ => true
  | .caddyRefill _ => true
  | .caddyWriteback _ => true
  | .spillBuildDone _ => true
  | .flushWalkDone _ _ => true
  | .mcPass _ _ => true
  | .mcSplit _ _ => true
  | .gateListStart _ => true
  | .gateEntryChange _ => true
  | .timeTick _ => true
  | .timeCheckpoint _ => true
  | .ppsInEdge quarter => decide (quarter.toNat < 5)
  | .ppsSeenTimeout => true
  | .ppsOutRise => true
  | .ppsOutFall => true
  | .refLock => true
  | .refLoss => true
  | .holdValidExpiry => true
  | .auditCheckpointCount _ => true
  | .auditCheckpointTimer _ => true
  | .checkpointSigned _ _ => true
  | .auditBufHandback _ => true
  | .auditExportFrame _ => true
  | .postcardFrame _ => true
  | .sctrCrossing _ => true
  | .sctrCapture _ c => wfCapture c
  | .queuePoll q read => wfQueue q && wfRead read
  | .lapReread q _ => wfQueue q
  | .commandStart q => wfQueue q
  | .completionWrite q => wfQueue q
  | .cqPoll q _ => wfQueue q
  | .eventRingPoll q _ => wfQueue q
  | .faultRecordPoll _ => true
  | .strainerBankSwap _ => true
  | .strainerItemWritten _ => true
  | .strainerNoticePoll _ _ => true
  | .irqHoldoffEnd _ => true
  | .dmaRetry n r => wfRetry n r
  | .faultMessage _ => true
  | .faultWindowEnd _ _ _ => true
  | .domainHoldoffExpiry d => wfDom d
  | .domainWakeDone d failed => wfDom d && wfBanks failed
  | .supplyDipStart _ => true
  | .supplyDipEnd _ _ _ => true
  | .supplyReset _ => true
  | .thermtrip _ => true
  | .tapInstruction _ => true
  | .switchTime => true
  | .refclkLoss g => wfRef g
  | .refclkReturn g => wfRef g
  | .perstDeassert => true
  | .d2dLinkError _ _ => true
  | .domainDropDone d => wfDom d

end Sys2Proof
end

