-- ==== Sys2Proof/Tests/Slice0.lean ====
section
/-! SUPPORT. Tests: an ill-formed term for each check of well-formedness, states that meet the hypotheses of each statement, and
a few examples of the manual. -/

namespace Sys2Proof.Tests

set_option Elab.async false

open Sys2Proof Sys2Proof.Machine

/-! ### Ill-formed commands -/

def subZero : Sub := { queue := 0, index := 0, tag := 7 }
def subFar : Sub := { queue := 257, index := 0, tag := 7 }

theorem test_ill_formed_submission : (Instr.nop subFar).wf = false ∧ (Instr.nop subZero).wf = true := by decide
theorem test_ill_formed_data : (Instr.flowProfileSet subZero 0 0 (some [1, 2])).wf = false ∧
    (Instr.flowProfileSet subZero 0 0 none).wf = true := by decide
theorem test_ill_formed_units :
    (Instr.selfTest subZero 0 0 { tested := 2, units := [
      { source := 0x3001, failed := true, test := 1, addr := 0 }, { source := 0x3000, failed := true, test := 1, addr := 0 }] }).wf =
      false := by decide
theorem test_ill_formed_domain : (Instr.domainDropDone 48).wf = false ∧ (Instr.domainDropDone 47).wf = true := by decide
theorem test_ill_formed_reference : (Instr.refclkLoss 9).wf = false ∧ (Instr.refclkLoss 8).wf = true := by decide
theorem test_ill_formed_read : (Instr.queuePoll 0 (some (List.replicate 9 0))).wf = false ∧
    (Instr.queuePoll 257 none).wf = false ∧ (Instr.queuePoll 256 (some (List.replicate 8 0))).wf = true := by decide
theorem test_ill_formed_plane : (Instr.planeFail 0 6).wf = false ∧ (Instr.planeFail 0 5).wf = true := by decide
theorem test_ill_formed_quarter : (Instr.ppsInEdge 5).wf = false ∧ (Instr.ppsInEdge 4).wf = true := by decide
theorem test_ill_formed_quanta : (Instr.pfcReceive 0 1 [0, 0] 64).wf = false := by decide
theorem test_ill_formed_window : (Instr.serWindowEnd 0 5 4).wf = false ∧ (Instr.serWindowEnd 0 4 4).wf = true := by decide
theorem test_ill_formed_scan : (Instr.eyeScanPointDone 0 5 4).wf = false := by decide
theorem test_ill_formed_skews : (Instr.alignLock 0 (List.replicate 9 0)).wf = false := by decide
theorem test_ill_formed_training : (Instr.trainComplete 0 (List.replicate 9 none) []).wf = false := by decide

def rxEmpty (bs : List Byte) : RxFrame :=
  { port := 0, bytes := bs, codeError := false, fcsGood := true, started := false, detAgo := 0, p := 0, h := 0
    cwCorrected := 0, cwUncorrected := 0, hdrRate := false, pipe := 0, upset := .none }
theorem test_ill_formed_frame : (Instr.frameReceive (rxEmpty [])).wf = false ∧ (Instr.frameReceive (rxEmpty [0])).wf = true := by decide
theorem test_ill_formed_banks :
    (Instr.domainWakeDone 4 [{ source := 0x3003, content := 0, first := 1, last := 0, canary := (0, 0), bad := true }]).wf = false ∧
    (Instr.domainWakeDone 4 [{ source := 0x3003, content := 0, first := 0, last := 1, canary := (0, 0), bad := true }]).wf = true := by
  decide

/-! ### States -/

/-- A running device: every domain on, the host up, queue 0 and ring 0 in service with an event ring, identity and time set. -/
def base (m : Mode) : State :=
  { State.reset with
    dev := { DevState.reset with mode := m, pcieUp := true, perstN := true, resetN := true, domSet := true, bootStep := 4 }
    time := { TimeState.reset with set := true, sliceOk := 0xFFFF }
    power := { PowerState.reset with doms := (List.range 48).map (fun d => (d, { Dom.reset with state := .on })) }
    host := { HostState.reset with
      adminCtl := setFld HostState.reset.adminCtl 63 63 1, adminRunning := true
      queues := [(0, { Queue.admin with state := .running, events := some (EvRing.create 0 6 0 true) })]
      cqs := [(0, { CRing.admin with room := 64 })] } }

/-- The command of a row in execution, and the state in which it is. -/
def ex (row : CmdRow) (p : BitVec 384) : Exec :=
  { index := 0, tag := 7, opcode := BitVec.ofNat 16 row.opcode, param := p, stale := false, begun := false, votes := [] }
def given (s : State) (row : CmdRow) (p : BitVec 384) : State := s.modQueue 0 (fun q => { q with inExec := [ex row p] })

/-- It is ready; it acts; and the state in which it does. -/
def rdy (s : State) (row : CmdRow) (p : BitVec 384) : Bool := (given s row p).ready row subZero p (ex row p)
def upon (s : State) (row : CmdRow) (p : BitVec 384) (ds : List Nat) : State := (given s row p).readied 0 ds (ex row p)
def acts (s : State) (row : CmdRow) (p : BitVec 384) (ds : List Nat) : Bool := rdy s row p && (upon s row p ds).allOn ds

/-- What `acts` says. -/
theorem acting_of_acts {s : State} {row : CmdRow} {p : BitVec 384} {ds : List Nat} (h : acts s row p ds = true) :
    Acting (given s row p) row subZero p ds (ex row p) (upon s row p ds) ((ex row p).voting (given s row p) ds) := by
  simp only [acts, Bool.and_eq_true] at h
  exact ⟨h.1, rfl, rfl, h.2⟩

def hdl (t i : Nat) : Nat := (mkHandle 1 t i).toNat

/-! ### Hypotheses of the statements: each conjunct of a theorem meets those of one clause, in the order of the statement -/

def conf : State := base .configure
def run : State := base .run

theorem meets_step : run.pending = [] ∧ removesPower .powerOn = true ∧ removesPower .resetNLow = false ∧
    (base .lockout).dev.mode = .lockout ∧ removesPower (.nop subZero) = false := by decide +kernel
theorem sound_conf : Sound conf :=
  ⟨by decide +kernel, by decide +kernel, by decide +kernel, by decide +kernel, by decide +kernel⟩
theorem steps_sound : ∃ t, Sound conf ∧ step conf = .next t := ⟨_, sound_conf, rfl⟩
theorem runs_in_lockout : ∃ t, exec (.nop subZero) (base .lockout) = .next t := ⟨_, rfl⟩
theorem meets_CompletionIsOwed : ((given conf Cat.nop 0).queue 0).isSome = true ∧ (ex Cat.nop 0).votes = [] ∧
    retires (ex Cat.nop 0).opcode.toNat = false := by decide +kernel
/-- A command on a handle, and one found stale at its start, in each case of `ChecksInOrder`. -/
def qstat (h : Nat) : BitVec 384 := pack 384 [(31, 0, h)]
def body (bad absent : Bool) : Body := { bad := fun _ => bad, absent := fun _ => absent, act := fun s => .ok 0 s }
theorem meets_ChecksInOrder :
    let s := given (base .safe) Cat.nop 0
    let t := given conf Cat.queueStatusGet (qstat (hdl 4 3))
    (s.mode = .safe ∧ Cat.modeSet.modes.contains .safe = false ∧ s.findExec 0 0 = some (ex Cat.nop 0) ∧ (ex Cat.nop 0).begun = false) ∧
    (t.mode ≠ .safe ∧ t.findExec 0 0 = some (ex Cat.queueStatusGet (qstat (hdl 4 3)))) ∧
    anyHandle Cat.queueStatusGet (qstat 0) hBad = true ∧ anyHandle Cat.queueStatusGet (qstat (hdl 4 256)) hBad = false ∧
    (body true false).bad t = true ∧ (body false true).absent t = true ∧
    anyHandle Cat.queueStatusGet (qstat (hdl 4 3)) (fun k h => hMissing t k (fld h 19 0)) = true := by decide +kernel
theorem meets_AdminCommandsComplete :
    rdy conf Cat.nop 0 = true ∧
    (rdy conf Cat.protSet (pack 384 [(33, 32, 3), (31, 0, 0x40555555)]) = true ∧ fld (0x40555555 : BitVec 32) 29 24 = 0) ∧
    (rdy conf Cat.queueStatusGet (qstat (hdl 4 0)) = true ∧ ((given conf Cat.queueStatusGet (qstat (hdl 4 0))).queue 0).isSome = true ∧
      (conf.cq 0).isSome = true ∧ (conf.queue 0).any (fun q => q.state ≠ .stopped) = true) ∧
    (rdy conf Cat.modeSet (pack 384 [(2, 0, 2)]) = true ∧ rdy run Cat.modeSet (pack 384 [(2, 0, 3)]) = true ∧ modeCode .run = 3) ∧
    (rdy conf Cat.modeSet (pack 384 [(2, 0, 3)]) = true ∧ conf.dev.domSet = true ∧ conf.time.set = true) ∧
    rdy { conf with dev := { conf.dev with domSet := false } } Cat.modeSet (pack 384 [(2, 0, 3)]) = true ∧
    rdy run Cat.modeSet (pack 384 [(2, 0, 2)]) = true ∧
    rdy run Cat.modeSet (pack 384 [(2, 0, 4)]) = true := by decide +kernel

/-- Queue 1 and ring 1 beside queue 0 and ring 0. -/
def twoQueues : State :=
  { conf with host := { conf.host with
      queues := conf.host.queues ++ [(1, Queue.create 1 0x2000 6 1000 1 (some (EvRing.create 0 6 0 true)) 0)]
      cqs := conf.host.cqs ++ [(1, CRing.create 0x3000 6 1000 0 true 0)] } }
def spareRing : State := { twoQueues with host := { twoQueues.host with cqs := twoQueues.host.cqs ++ [(2, CRing.create 0 6 1000 0 true 0)] } }
def createP (cq : Nat) : BitVec 384 :=
  pack 384 [(255, 192, 0x10000), (191, 128, 0x20000), (127, 96, hdl 4 cq), (95, 66, 100), (65, 64, 1), (63, 59, 16), (58, 54, 4),
    (53, 46, 255), (45, 45, 1)]
def allQueues : State := { conf with host := { conf.host with queues := (List.range 257).map (fun n => (n, Queue.admin)) } }
theorem meets_RingCommandsComplete :
    (rdy twoQueues Cat.queueCreate (createP 65537) = true ∧ badBase 0x10000 = false ∧ badPoll 100 = false ∧ badExp 16 = false ∧
      badExp 4 = false ∧ badBase 0x20000 = false ∧ Map.lowestFree twoQueues.host.queues 257 0 = some 2 ∧
      fld (BitVec.ofNat 32 (hdl 4 65537)) 19 0 ≠ 65536) ∧
    rdy twoQueues Cat.queueCreate (createP 65536) = true ∧
    (rdy allQueues Cat.queueCreate (createP 65536) = true ∧ Map.lowestFree allQueues.host.queues 257 0 = none) ∧
    (let s := given twoQueues Cat.queueDestroy (qstat (hdl 4 1))
     rdy twoQueues Cat.queueDestroy (qstat (hdl 4 1)) = true ∧ (s.queue 1).any (fun q => q.inExec = [] ∧ owesCompletions s 1 q = false ∧ heldFits s q = true) =
       true ∧ namedByOthers s (BitVec.ofNat 32 (hdl 4 1)) = false) ∧
    (let t := twoQueues.modQueue 1 (fun q => { q with inExec := [ex Cat.nop 0] })
     rdy t Cat.queueDestroy (qstat (hdl 4 1)) = true ∧ (t.queue 1).any (fun q => q.inExec ≠ []) = true) ∧
    (rdy conf Cat.cqCreate (pack 384 [(127, 64, 0x1000), (63, 34, 1000000000), (33, 29, 4), (28, 21, 1), (20, 20, 1), (19, 4, 9)]) = true ∧
      badBase 0x1000 = false ∧ badPoll 1000000000 = false ∧ Map.lowestFree conf.host.cqs 257 0 = some 1) ∧
    (rdy twoQueues Cat.cqDestroy (qstat (hdl 4 65536)) = true ∧ rdy twoQueues Cat.cqDestroy (qstat (hdl 4 65537)) = true ∧
      twoQueues.host.queues.any (fun x => x.2.cq.toNat == 1) = true) ∧
    (rdy spareRing Cat.cqDestroy (qstat (hdl 4 65538)) = true ∧ spareRing.host.queues.any (fun x => x.2.cq.toNat == 2) = false ∧
      namedByOthers (given spareRing Cat.cqDestroy (qstat (hdl 4 65538))) (BitVec.ofNat 32 (hdl 4 65538)) = false) := by decide +kernel

/-- A ring entry with O = 1, a lap, an opcode and a parameter length. -/
def entry (lap op plen : Nat) : Entry := pack 512 [(511, 511, 1), (31, 24, lap), (23, 16, plen), (15, 0, op)]
/-- Queue 1 with entries in its window and its read in a state. -/
def window (es : List Entry) (on : Bool) (failed : FailedRead) : State :=
  twoQueues.modQueue 1 (fun q => { q with fetched := es, windowed := on, failedRead := failed })
/-- Rings whose reads have failed once. -/
def retrying : State :=
  let s := (spareRing.modCq 2 (fun r => { r with reads := .retry })).modQueue 1 (fun q => { q with
    events := q.events.map (fun r => { r with reads := .retry }) })
  s.modStrainer 3 (fun r => { r with cfg := setFld r.cfg 63 63 1, reads := .retry })
theorem meets_QueueReadsComplete :
    ((window [entry 1 0 0] true .none).fetching 1).any (fun q => q.failedRead = .none ∧ q.fetched.length < 8 ∧ q.windowed = true) = true ∧
    ((window [] false .none).fetching 1).any (fun q => q.failedRead = .none ∧ q.fetched.length < 8 ∧ q.windowed = false) = true ∧
    ((window [] false .window).fetching 1).any (fun q => q.failedRead = .window) = true ∧
    ((window [entry 2 0 0] true .lap).fetching 1).any (fun q => q.failedRead = .lap) = true ∧
    ((retrying.cq 2).any (fun r => r.reads = .retry) = true ∧ retrying.hostUp = true ∧
      ∀ x ∈ retrying.host.queues, x.2.cq.toNat = 2 → x.2.state ≠ .running) ∧
    (retrying.queue 1).any (fun q => q.state = .running ∧ q.events.any (fun r => r.reads = .retry) = true) = true ∧
    ((retrying.strainer 3).en = true ∧ (retrying.strainer 3).reads = .retry) ∧
    ((window [entry 2 0 0] true .none).fetching 1).any (fun q => q.failedRead = .none ∧ q.wrongLap = true ∧ q.lap = 1) = true ∧
    entryO (entry 2 0 0) = true ∧ entryLap (entry 2 0 0) ≠ 1 ∧ entryLap (entry 1 0 0) = 1 ∧ entryO (0 : Entry) = false := by
  decide +kernel
theorem meets_ReadWindow : ((window [] false .none).queue 1).any (fun q => q.windowed = false) = true ∧
    ((window [entry 2 0 0] true .none).queue 1).any (fun q => q.windowed = true ∧ q.fetched = [entry 2 0 0]) = true ∧
    ((window [0] true .none).queue 1).any (fun q => q.fetched = [0]) = true := by decide +kernel
theorem meets_QueueControlCompletes :
    ((((window [entry 1 0xFFFF 0] true .none).fetching 1).any (fun q => q.fetched = [entry 1 0xFFFF 0] ∧ q.wrongLap = false) = true) ∧
      wellFormedRow (entry 1 0xFFFF 0) = none) ∧
    (wellFormedRow (entry 1 0 0) = some Cat.nop ∧
      ((window [entry 1 0 0] true .none).queue 1).any (fun q => mayStart (window [entry 1 0 0] true .none) 1 q Cat.nop false) = true ∧
      placeLeft (window [entry 1 0 0] true .none) 1 = true) ∧
    (let s := (window [entry 1 0 0] true .none).modCq 1 (fun r => { r with
       room := 0, held := List.replicate 64 { queue := 1, index := 0, tag := 0, status := .ok, rlen := 0, result := 0 } })
     placeLeft s 1 = false ∧ (s.queue 1).any (fun q => mayStart s 1 q Cat.nop false) = true) ∧
    (let owe := fun (i : Irq) => { i with owed := true, untilNs := 0 }
     ((conf.modCq 0 (fun r => { r with irq := owe r.irq })).cq 0).any (fun r => r.irq.owed = true ∧ r.irq.untilNs ≤ 0) = true ∧
     ((conf.modQueue 0 (fun q => { q with events := q.events.map (fun r => { r with irq := owe r.irq }) })).eventRing 0).any
       (fun r => r.irq.owed = true ∧ r.irq.untilNs ≤ 0) = true ∧
     ((conf.modStrainer 3 (fun r => { r with irq := owe r.irq })).strainer 3).irq.owed = true) ∧
    (let s := { conf with host := { conf.host with adminRunning := false } }
     s.hostUp = true ∧ badAdmin s (setFld HostState.reset.adminCtl 63 63 1) = false ∧ badAdmin s (setFld 0 63 63 1) = true) ∧
    (conf.hostUp = true ∧ conf.host.adminRunning = true ∧ bitAt conf.host.adminCtl 63 = true) := by decide +kernel
def comp0 : Comp := { queue := 0, index := 0, tag := 7, status := .ok, rlen := 0, result := 0 }
theorem meets_RingWritesComplete :
    conf.hostUp = true ∧
    ((conf.modCq 0 (fun r => { r with finished := [comp0] })).cq 0).any (fun r => r.finished = [comp0] ∧ r.held = [] ∧ 0 < r.room) = true ∧
    ((conf.modCq 0 (fun r => { r with finished := [comp0], held := [comp0] })).cq 0).any (fun r => r.held ≠ []) = true ∧
    ((conf.modCq 0 (fun r => { r with finished := [comp0], room := 0 })).cq 0).any (fun r => r.room = 0) = true ∧
    (conf.eventRing 0).isSome = true := by decide +kernel
def strOn (f : Strainer → Strainer) : State := conf.modStrainer 3 (fun r => f { r with cfg := setFld r.cfg 63 63 1, room := 64, lap := 1 })
def item0 : SItem := { header := 0, bytes := [1, 2], prio := 0, arrival := 0, kind := 0, inPort := 0 }
theorem meets_StrainersComplete :
    (conf.hostUp = true ∧ quadThere conf 3 = true ∧ conf.confRun = true ∧ (conf.strainer 3).en = false ∧
      badStrCfg (conf.strainer 3) (setFld Strainer.reset.cfg 63 63 1) = false) ∧
    ((strOn id).strainer 3).en = true ∧
    (((strOn (fun r => { r with fill := [item0] })).strainer 3).fill ≠ [] ∧
      ((strOn (fun r => { r with fill := [item0] })).strainer 3).drain = [] ∧
      ((strOn (fun r => { r with fill := [item0] })).strainer 3).inProgress = none) ∧
    (((strOn (fun r => { r with inProgress := some item0 })).strainer 3).inProgress = some item0 ∧
      ((strOn (fun r => { r with inProgress := some item0 })).strainer 3).irq.enabled = false) ∧
    1 ≤ ((strOn (fun r => { r with areaUsed := [(0, 128)] })).strainer 3).areaUsed.length := by decide +kernel

/-- Faults of the device: a DEGRADE, a NOTE, and a HALT. -/
def degrade : BitVec 128 := faultMsg 0 0x1001 0x00C 2 1 0
def noteMsg : BitVec 128 := faultMsg 0 0x1007 0x0A0 0 1 0
def unacked (l : List (BitVec 128)) : State := { conf with faults := { conf.faults with unack := l } }
def inTest : State :=
  { base .boot with
    dev := { (base .boot).dev with factory := true }
    fuses := { Fuses.reset with factoryIntact := true } }
theorem meets_FaultCommandsComplete :
    (rdy (unacked [degrade]) Cat.faultAck (degrade.setWidth 384) = true ∧ 2 ≤ msgClass degrade ∧ degrade ∈ (unacked [degrade]).faults.unack) ∧
    (rdy conf Cat.faultAck (degrade.setWidth 384) = true ∧ degrade ∉ conf.faults.unack) ∧
    (rdy (unacked [degrade]) Cat.faultListGet (pack 384 [(63, 0, 64), (95, 64, 16)]) = true ∧ misaligned 64 = false ∧
      16 * (unacked [degrade]).faults.unack.length ≤ 16) ∧
    (rdy conf Cat.faultWindowSet (pack 384 [(9, 0, 0x0A0), (31, 16, 1), (39, 32, 255)]) = true ∧ windowedKind 0x0A0 = true) ∧
    (rdy inTest Cat.faultInject (noteMsg.setWidth 384) = true ∧ badInject (given inTest Cat.faultInject (noteMsg.setWidth 384)) noteMsg =
      false) := by decide +kernel
def haltMsg : BitVec 128 := faultMsg 0 0x1001 0x00C 3 1 0
theorem meets_CollectorRowsComplete :
    (conf.mode ≠ .reset ∧ ({ conf with faults := { conf.faults with transit := [haltMsg, noteMsg] } } : State).nextMessage = some haltMsg) ∧
    (noteMsg ∉ conf.faults.transit ∧ sendable conf noteMsg = true ∧ msgClass (conf.judge noteMsg).2.1 < 3) ∧
    (sendable conf haltMsg = true ∧ msgClass (conf.judge haltMsg).2.1 = 3) ∧
    (sendable (unacked [haltMsg]) haltMsg = true ∧ msgClass ((unacked [haltMsg]).judge haltMsg).2.1 = 4) ∧
    conf.dev.pcieUp = true := by decide +kernel
def windowFull (n : Nat) : State :=
  { conf with faults := { conf.faults with windows := [{ source := 0x1007, kind := 0x0A0, gen := 1, count := n, endNs := 10 }] } }
theorem meets_FaultWindows :
    (openWindows (windowFull 4)).find? (FWindow.of noteMsg) = some { source := 0x1007, kind := 0x0A0, gen := 1, count := 4, endNs := 10 } ∧
    (windowOf (windowFull 4) (msgKind noteMsg)).2 < 4 + 1 ∧ 3 + 1 ≤ (windowOf (windowFull 3) (msgKind noteMsg)).2 ∧
    (openWindows conf).find? (FWindow.of noteMsg) = none := by decide +kernel

def domP (d b : Nat) : BitVec 384 := pack 384 [(31, 0, hdl 14 d), (32, 32, b)]
def domIn (st : DomState) (l : List Vote) (d : Nat) : State :=
  conf.modDom d (fun m => { m with state := st, votes := l, cause := some ({ kind := 9, client := 1 }, 0) })
def hostV : Vote := { kind := 9, client := queueHandle conf 0 }
theorem meets_PowerCommandsComplete :
    (rdy conf Cat.pwrVote (domP 4 1) = true ∧ hostVote conf 4 = none ∧ (conf.takeVote 4 hostV).domOn 4 = true) ∧
    (rdy (domIn .off [] 47) Cat.pwrVote (domP 47 1) = true ∧ ((domIn .off [] 47).takeVote 47 hostV).domOn 47 = false) ∧
    (rdy (domIn .on [hostV] 4) Cat.pwrVote (domP 4 0) = true ∧ hostVote (domIn .on [hostV] 4) 4 = some hostV) ∧
    (rdy conf Cat.pwrVote (domP 3 0) = true ∧ hostVote conf 3 = none) ∧
    rdy conf Cat.pwrStatusGet (qstat (hdl 14 0)) = true := by decide +kernel
theorem meets_PowerRowsComplete :
    (((domIn .holdoff [] 5).dom 5).state = .holdoff ∧ ((domIn .holdoff [] 5).dom 5).holdoffEnd ≤ (domIn .holdoff [] 5).tbNs) ∧
    (((domIn .dropping [] 43).dom 43).state = .dropping ∧ ((domIn .dropping [] 43).dom 43).votes = []) ∧
    (((domIn .dropping [] 44).dom 44).state = .dropping ∧ ((domIn .dropping [] 44).dom 44).votes = []) ∧
    (((domIn .dropping [hostV] 47).dom 47).votes ≠ [] ∧ ((domIn .dropping [hostV] 47).dom 47).cause.isSome = true) ∧
    ((conf.modRail 7 (fun x => { x with inDip := true })).rail 7).inDip = true ∧
    conf.mode ≠ .reset ∧ conf.hostUp = true ∧ 48 ≤ (48 : BitVec 6).toNat := by decide +kernel
theorem meets_WarmResetKeeps : conf.mode ≠ .reset ∧ conf.mode ≠ .lockout ∧ run.mode = .run := by decide +kernel

def withDev (s : State) (f : DevState → DevState) : State := { s with dev := f s.dev }
def withTime (s : State) (f : TimeState → TimeState) : State := { s with time := f s.time }
theorem meets_ResetSourcesComplete :
    conf.dev.resetN = true ∧ ((withDev (base .boot) (fun d => { d with bootStep := 0, tapIr := 3 })).dev.bootStep = 0) ∧
    (State.reset.mode = .reset ∧ (withDev State.reset (fun d => { d with railsGood := true })).dev.railsGood = true ∧
      bitAt State.reset.dev.refclk 8 = true) ∧
    conf.dev.perstN = true ∧ ((base .boot).dev.perstN = true ∧ (base .boot).mode = .boot ∧ 2 ≤ (base .boot).dev.bootStep.toNat) ∧
    (conf.hostUp = true ∧ fld (0xB0070001 : BitVec 32) 31 16 = 0xB007 ∧ bitAt (0xB0070001 : BitVec 32) 0 = true ∧
      bitAt (0xB0070000 : BitVec 32) 0 = false) ∧
    (withDev State.reset (fun d => { d with resetN := true })).dev.resetN = true := by decide +kernel
def links0 : D2dLink := .core 0 3
theorem meets_ResetsAndPinsComplete :
    (conf.mode ≠ .reset ∧ conf.mode ≠ .lockout) ∧
    (conf.mode = .configure ∧ domThere conf 43 = true ∧ ((domIn .waking [] 43).dom 43).state = .waking) ∧
    (let b : ScrubbedBank := { source := 0x3FC0, content := 0, first := 0, last := 0, canary := (0, 0), bad := true }
     [b].filter (fun b => blockIn 19 b && (b.bad || b.canary != Config.canaryWords (conf.dom 19).canary)) = [b]) ∧
    (let s := (base .boot).modDom 0 (fun m => { m with state := .waking })
     s.mode = .boot ∧ domThere s 0 = true ∧ (s.dom 0).state = .waking) ∧
    ((3 : BitVec 8) ≤ 7 ∧ (withDev conf (fun d => { d with resetN := false })).dev.resetN = false) ∧
    (7 : BitVec 4).toNat < 8 ∧ (conf.mode ≠ .reset ∧ d2dThere conf links0 = true) := by decide +kernel
def bufP (a n : Nat) : BitVec 384 := pack 384 [(63, 0, a), (95, 64, n)]
def waits : State := withDev (base .boot) (fun d => { d with perstN := true })
/-- A flash update runs, with a command in execution. -/
def flashBusy (e : Exec) : State :=
  (withDev conf (fun d => { d with flashing := some (true, [1, 2]) })).modQueue 0 (fun q => { q with inExec := [e] })
/-- A bundle that verifies, and an OTP that reads well, rest on free values: no state decides those clauses. -/
theorem meets_FirmwareComplete :
    ((rdy conf Cat.selfTest (bufP 64 16448) = true ∧ misaligned 64 = false) ∧
    (rdy waits Cat.bundleLoad (bufP 64 64) = true ∧ bootWaits waits = true ∧ bundleOk waits [1, 2] = false) ∧
    (rdy { waits with dev := { waits.dev with bootStep := 3 } } Cat.bundleLoad (bufP 64 64) = true ∧
      bootWaits { waits with dev := { waits.dev with bootStep := 3 } } = false) ∧
    rdy conf Cat.bundleInfoGet 0 = true ∧
    (rdy conf Cat.flashUpdate (bufP 64 64) = true ∧ conf.dev.flashing = none ∧ conf.dev.bundleFromPcie = false ∧
      (withDev conf (fun d => { d with bundleFromPcie := true })).dev.bundleFromPcie = true ∧
      (flashBusy (ex Cat.flashUpdate (bufP 64 64))).dev.flashing ≠ none ∧ rdy (flashBusy (ex Cat.nop 0)) Cat.flashUpdate (bufP 64 64) = true) ∧
    ((flashBusy { ex Cat.flashUpdate (bufP 64 64) with begun := true }).findExec 0 0 = some { ex Cat.flashUpdate (bufP 64 64) with begun := true } ∧
      (flashBusy (ex Cat.nop 0)).dev.flashing = some (true, [1, 2]))) ∧
    (waits.mode = .boot ∧ (withDev waits (fun d => { d with bootStep := 1 })).dev.bootStep = 1 ∧
      (withDev waits (fun d => { d with loading := some true })).dev.loading = some true ∧ darkChiplet waits = none) := by decide +kernel

def port0 (t : Nat) : Port := { Port.create t 16 with cfg := (Port.create t 16).cfg ||| 1 }
/-- Ports of slice 0 with the lanes of each in a state. -/
def ported (s : State) (ps : List (Nat × Port)) (st : LaneState) : State :=
  { s with ports := ps, lanes := ps.flatMap (fun e => (lanesOf e.1 e.2).map (fun l => (l, { ({} : Lane) with state := st, adapt := .track }))) }
def portP (p : Nat) : BitVec 384 := pack 384 [(31, 0, hdl 3 p)]
def upLink (x : Port) : Port := { x with link := { x.link with up := true } }
theorem meets_TimeRegistersComplete :
    conf.hostUp = true ∧ badTimeCtl 0x1_0000_0800 = false ∧ badTimeCtl 0 = true ∧
    (0x130000000 ≤ (0x130000000 : BitVec 64).toNat ∧ (0x150000001 : BitVec 64).toNat > 0x150000000) ∧
    (0x3B9ACA000000 : BitVec 64).toInt.natAbs ≤ 0x3B9ACA000000 ∧ 0x3B9ACA000000 < (0x3B9ACA000001 : BitVec 64).toInt.natAbs ∧
    fld (0x3B9AC9FF_00000000 : BitVec 64) 63 32 ≤ 999999999 ∧ 999999999 < fld (0x3B9ACA00_00000000 : BitVec 64) 63 32 ∧
    lanesIn (ported conf [(4, port0 3)] .up) 4 .up = true ∧
    (rdy (ported conf [(4, upLink (port0 3))] .up) Cat.tsCalGet (portP 4) = true ∧
      rdy (ported conf [(4, port0 3)] .up) Cat.tsCalGet (portP 4) = true) ∧
    ((ported conf [(4, upLink (port0 3))] .up).port 4).any (fun x => x.link.up) = true ∧
    (withTime conf (fun t => { t with writes := [.inc 0x140000000] })).time.writes ≠ [] ∧
    ((ported conf [(4, port0 3)] .up).port 4).any (fun x => x.link.up = false) = true := by decide +kernel
theorem meets_TimeRowsComplete :
    (conf.time.writes = [] ∧ (withTime conf (fun t => { t with writes := [.inc 0x140000000] })).time.writes = [.inc 0x140000000] ∧
      (conf.time.dev + conf.time.inc.toNat : Int) + (0x8000000000000000 : BitVec 64).toInt * 65536 < 0) ∧
    ((withTime conf (fun t => { t with ctl := 1 <<< 3 })).time.refSel ≠ 0 ∨ (withTime conf (fun t => { t with ctl := 1 <<< 5 })).time.refSel ≠ 0) ∧
    (let s := withTime conf (fun t => { t with quality := .holdover, holdValid := true, holdStart := 0, tb := 3600000000000 * 2 ^ 32 })
     s.time.quality = .holdover ∧ s.time.holdStart + 1000000000 * fld s.time.ctl 31 20 ≤ s.tbNs) ∧
    (let s := withTime conf (fun t => { t with ppsSeen := true, ppsCounted := some 0, tb := 1500000000 * 2 ^ 32 })
     s.time.ppsCounted = some 0 ∧ 0 + 1500000000 ≤ s.tbNs) ∧
    (let s := withTime conf (fun t => { t with ctl := t.ctl ||| 2, quality := .freerun, crossed := true })
     bitAt s.time.ctl 1 = true ∧ s.time.quality ≠ .invalid ∧ s.time.crossed = true) ∧
    (let s := withTime conf (fun t => { t with ppsOut := true, ppsOutNs := 0, tb := 1000000000 * 2 ^ 32 })
     s.time.ppsOut = true ∧ s.time.ppsOutNs + 1000000 * fld s.time.ctl 19 11 ≤ s.tbNs) ∧
    (let s := withTime conf (fun t => { t with quality := .invalid, ppsAccept := none })
     s.mode ≠ .reset ∧ s.time.ppsAccept = none ∧ s.time.quality = .invalid) ∧
    ((withTime conf (fun t => { t with ppsAccept := some 0 })).tbNs < 0 + 500000000) ∧
    1024 ≤ (withTime conf (fun t => { t with ticks := 1025 })).time.ticks ∧
    (let s := withTime conf (fun t => { t with skews := [(15, (3, 0))] })
     s.domOn 19 = true ∧ bitAt s.time.sliceOk 15 = true ∧ Map.find s.time.skews 15 ≠ none ∧
       Map.find s.time.skews 0 = none) := by decide +kernel
theorem meets_TimeIncrement : conf.hostUp = true ∧ (0x150000000 : BitVec 64).toNat ≤ 0x150000000 ∧
    (0x12FFFFFFF : BitVec 64).toNat < 0x130000000 ∧
    (withTime conf (fun t => { t with writes := [.inc 0x130000000] })).time.writes = [.inc 0x130000000] := by decide +kernel

def attrP (p a : Nat) : BitVec 384 := pack 384 [(31, 0, hdl 3 p), (63, 32, a)]
def createP' (sl first typ : Nat) : BitVec 384 := pack 384 [(31, 0, hdl 2 sl), (37, 32, first), (43, 40, typ)]
/-- A disabled port of four native lanes at index 4, and an enabled one of one lane at index 8. -/
def ports2 : State := ported conf [(4, Port.create 3 16), (8, port0 6)] .off
theorem meets_PortCommandsComplete :
    (acts ports2 Cat.portCreate (createP' 0 4 2) [4] = true ∧ laneCount 2 ≠ 0 ∧ 4 % laneCount 2 = 0 ∧ lanesHeld ports2 4 (laneCount 2) = true ∧
      acts ports2 Cat.portCreate (createP' 15 56 4) [19] = true ∧ lanesHeld ports2 (64 * 15 + 56) (laneCount 4) = false) ∧
    (acts ports2 Cat.portDestroy (portP 8) [4] = true ∧ (ports2.port 8).any (·.enabled) = true) ∧
    (acts ports2 Cat.portDestroy (portP 4) [4] = true ∧ (ports2.port 4).any (fun x => x.enabled = false) = true ∧
      namedByOthers (given ports2 Cat.portDestroy (portP 4)) (BitVec.ofNat 32 (hdl 3 4)) = false) ∧
    acts ports2 Cat.portStatusGet (portP 4) [4] = true ∧
    (acts ports2 Cat.portAttrSet (attrP 4 0x80000008) [4] = true ∧ badAttr ports2 0x80000008 = false ∧
      ports2.ports.countP (fun y => y.1 != 4 && y.2.priv) < 64) ∧
    acts ports2 Cat.portHoldClear (portP 4) [4] = true ∧
    (ports2.hostUp = true ∧ sliceThere ports2 0 = true ∧ ports2.sliceWritable 0 = true ∧
      badPortCfg (Port.create 3 16) (setFld 0 0 0 1) = true ∧
      badPortCfg (Port.create 3 16) (setFld (Port.create 3 16).cfg 0 0 1) = false ∧ (Port.create 3 16).enabled = false ∧
      badPortCfg (port0 6) (setFld (port0 6).cfg 0 0 0) = false ∧ (port0 6).enabled = true) := by decide +kernel
/-- Another command names the port: its destruction waits. -/
theorem meets_destroy_waits :
    let s := ports2.modQueue 0 (fun q => { q with inExec := [{ ex Cat.portStatusGet (portP 4) with index := 1 }, ex Cat.portDestroy (portP 4)] })
    s.ready Cat.portDestroy subZero (portP 4) (ex Cat.portDestroy (portP 4)) = true ∧
      namedByOthers (s.readied 0 [4] (ex Cat.portDestroy (portP 4))) (BitVec.ofNat 32 (hdl 3 4)) = true := by decide +kernel

def laneP (p i : Nat) : BitVec 384 := pack 384 [(31, 0, hdl 3 p), (34, 32, i)]
def trained (st : LaneState) : State := ported conf [(4, port0 3), (8, port0 6)] st
theorem meets_LaneCommandsComplete :
    (acts (trained .up) Cat.laneStatusGet (pack 384 [(63, 0, 64), (95, 64, hdl 3 4), (98, 96, 3)]) [20] = true ∧ misaligned 64 = false ∧
      badLaneIdx (trained .up) (BitVec.ofNat 32 (hdl 3 4)) 3 = false) ∧
    (acts (trained .up) Cat.laneCfgSet (pack 384 [(127, 96, hdl 3 8), (81, 81, 1), (63, 56, 8), (55, 48, 40), (47, 40, 15), (31, 16, 1500)])
      [20] = true ∧ badLaneCfg (trained .up) (BitVec.ofNat 32 (hdl 3 8)) 0 true (8, 40, 15) 1500 = false) ∧
    acts (trained .up) Cat.laneCfgGet (laneP 4 3) [20] = true ∧
    (acts (trained .off) Cat.laneRetireClear (laneP 4 3) [20] = true ∧ ((trained .off).lane 7).state ≠ .retired) ∧
    (acts (trained .up) Cat.laneAdaptCtl (laneP 4 0) [20] = true ∧ ((trained .up).lane 4).state = .up ∧
      acts (trained .off) Cat.laneAdaptCtl (pack 384 [(31, 0, hdl 3 4), (34, 32, 3), (41, 40, 1)]) [20] = true ∧
      acts (trained .align) Cat.laneAdaptCtl (pack 384 [(31, 0, hdl 3 4), (34, 32, 3), (41, 40, 2)]) [20] = true) ∧
    acts (trained .up) Cat.laneSerCfg (pack 384 [(31, 0, hdl 3 4), (45, 32, 10000), (87, 64, 10000000)]) [20] = true := by decide +kernel
def testP (p i pat loop gen chk : Nat) : BitVec 384 :=
  pack 384 [(31, 0, hdl 3 p), (34, 32, i), (40, 40, 1), (44, 41, pat), (46, 45, loop), (47, 47, gen), (48, 48, chk)]
/-- A scan of two points over one phase, on lane 7. -/
def eyeP : BitVec 256 :=
  pack 256 [(255, 192, 64), (191, 160, 80), (159, 128, hdl 3 4), (122, 120, 3), (119, 118, 1), (117, 112, 16), (103, 96, 1), (95, 88, 1), (71, 64, 1)]
def scan0 : Scan :=
  { id := 5, queue := 0, port := BitVec.ofNat 32 (hdl 3 4), laneIdx := 3, param := eyeP, v := 1, p := 0, points := 0, startTime := 0, endTime := 0
    recover := false, done := none }
def scanning : State := (trained .up).modLane 7 (fun x => { x with scan := some scan0 })
def scanP : BitVec 384 := pack 384 [(31, 0, hdl 3 4), (47, 32, 5)]
theorem meets_LaneTestsComplete :
    (acts ports2 Cat.laneTestCtl (testP 4 3 8 2 1 1) [20] = true ∧ badTest ports2 (BitVec.ofNat 32 (hdl 3 4)) 3 8 2 = false ∧
      (ports2.port 4).any (·.enabled) = false) ∧
    (acts ports2 Cat.laneTestCtl (testP 8 0 5 2 1 1) [20] = true ∧ badTest ports2 (BitVec.ofNat 32 (hdl 3 8)) 0 5 2 = false ∧
      (ports2.port 8).any (·.enabled) = true) ∧
    (acts (trained .up) Cat.eyeScanStart (eyeP.setWidth 384) [20] = true ∧ badEye (trained .up) (BitVec.ofNat 32 (hdl 3 4)) 3 eyeP = false ∧
      scannable ((trained .up).lane 7).state = true ∧ ((trained .up).lane 7).scan = none ∧ (chipletScans (trained .up) 0).length < 16) ∧
    (findScan scanning (BitVec.ofNat 32 (hdl 3 4)) 5 = some (7, scan0) ∧ acts scanning Cat.eyeScanStatus scanP [20] = true ∧
      acts scanning Cat.eyeScanAbort scanP [20] = true) := by decide +kernel
theorem meets_Generations : (ports2.port 8).isSome = true ∧ (0x01 : BitVec 8) ≠ 0xFF := by decide +kernel
theorem meets_Numbering : fld (mkHandle 0 3 4) 31 24 = 0 ∧ fld (mkHandle 1 3 4) 23 20 ≠ hType .queue ∧ (15 < 16 ∧ 1023 < 1024 ∧ 7 < 8) ∧
    ({ conf with fuses := { conf.fuses with member := 2 } } : State).fuses.member = 2 := by decide +kernel

def linked (st : LaneState) (tb : Nat) (f : LinkState → LinkState) : State :=
  (withTime (trained st) (fun t => { t with tb := tb * 2 ^ 32 })).modPort 4 (fun x => { x with link := f x.link })
theorem meets_TrainingComplete :
    (boundPort (trained .up) 12 = none ∧ boundPort (trained .up) 7 = some 4 ∧ ((trained .up).port 4).any (·.enabled) = true ∧
      (trained .up).domOn 20 = true) ∧
    lanesIn (trained .autoneg) 4 .autoneg = true ∧ lanesIn (trained .train) 4 .train = true ∧
    (lanesIn (trained .align) 4 .align = true ∧
      skewLimit (laneModeOf 3) < [0, 0, 0, skewLimit (laneModeOf 3) + 1].foldl max 0 - [0, 0, 0, skewLimit (laneModeOf 3) + 1].foldl min 0) ∧
    lanesIn (trained .up) 4 .up = true ∧
    (((linked .backoff 10 (fun l => { l with backoffEnd := some 10 })).port 4).any (fun x => x.link.backoffEnd = some 10) = true ∧
      lanesIn (linked .backoff 10 (fun l => { l with backoffEnd := some 10 })) 4 .backoff = true) ∧
    (let s := linked .train 10 (fun l => { l with trainEnd := some 10, timeouts := 7 })
     (s.port 4).any (fun x => x.link.trainEnd = some 10 ∧ 7 ≤ x.link.timeouts ∧ x.link.slowRaised = false) = true ∧ 10 ≤ s.tbNs ∧
       lanesIn s 4 .train = true) ∧
    (let s := linked .align 10 (fun l => { l with alignEnd := some 10, timeouts := 6 })
     (s.port 4).any (fun x => x.link.alignEnd = some 10 ∧ x.link.timeouts < 7) = true ∧ lanesIn s 4 .align = true) := by decide +kernel
theorem meets_LinkRowsComplete :
    ((linked .up 0 (fun l => { l with rs := .localFault })).port 4).any (fun x => x.link.rs ≠ .none) = true ∧
    (let s := linked .up 1000000 (fun l => { l with calibrated := true, cleanNs := some 0 })
     lanesIn s 4 .up = true ∧
       (s.port 4).any (fun x => x.link.rs = .none ∧ x.held = false ∧ x.link.calibrated = true ∧ x.link.cleanNs = some 0) = true ∧
       0 + 1000000 ≤ s.tbNs) ∧
    (let s := (linked .up 30 (fun l => { l with downs := [10, 20] })).modPort 4 (fun x => { x with guard := pack 64 [(31, 24, 1), (23, 12, 60)] })
     (s.port 4).any (fun x => fld x.guard 31 24 ≠ 0 ∧ x.held = false ∧
       flapping x.link.downs (fld x.guard 31 24) (1000000000 * fld x.guard 23 12) = true) = true) ∧
    ((linked .up 10 (fun l => { l with holdUntil := some 10 })).port 4).any (fun x => x.link.holdUntil = some 10) = true := by decide +kernel
theorem meets_LaneRowsComplete :
    (((trained .up).lane 7).state = .up ∧ ((trained .up).lane 7).adapt = .track) ∧
    (let s := (linked .up 2000000 id).modLane 7 (fun x => { x with adapt := .recover, recoverNs := some 0 })
     boundPort s 7 = some 4 ∧ (s.lane 7).adapt = .recover ∧ (s.lane 7).recoverNs = some 0 ∧ 0 + 2000000 ≤ s.tbNs) ∧
    (((trained .up).modLane 7 (fun x => { x with adapt := .frozen })).lane 7).adapt = .frozen ∧
    (let t : LaneTest := { pattern := 0, loop := 0, genEn := true, chkEn := true, acquired := false }
     let s := (trained .test).modLane 7 (fun x => { x with adapt := .acquire, test := some t })
     (s.lane 7).test = some t ∧ (s.lane 7).state = .test ∧ (s.lane 7).adapt = .acquire) ∧
    (let s := linked .up 1000000000 id
     (s.lane 7).serStart + 1000000 * (Port.create 3 16).serWindow.toNat ≤ s.tbNs ∧
       3 * 10000000 ≤ (Port.create 3 16).serThresh.toNat * 15000 ∧ (Port.create 3 16).serThresh.toNat * 14999 < 3 * 10000000) ∧
    ((scanning.lane 7).scan = some scan0 ∧ eyeNext eyeP 1 0 = some (0, 0) ∧ eyeNext eyeP 0 0 = none) := by decide +kernel

def withTables (s : State) (f : TableState → TableState) : State := { s with tables := f s.tables }
def withVers (s : State) (f : VerState → VerState) : State := { s with vers := f s.vers }
/-- An IPv4 entry of HOST for 10.0.0.1 at location 8, and learned and static MAC addresses beside it. -/
def hostE : BitVec 128 := pack 128 [(127, 125, 2), (119, 88, 0x0A000001), (85, 70, 7)]
def macE (mac port flags : Nat) : HostSlot :=
  { entry := pack 128 [(127, 125, 1), (122, 122, flags), (119, 108, 10), (107, 60, mac), (58, 43, port)], hit := 0 }
def hosts : State := withTables (trained .up) (fun t => { t with
  host := [(8, { entry := hostE, hit := 0 }), (12, macE 0x0200_0000_0001 4 0), (16, macE 0x0200_0000_0002 8 1)], learnCfg := setFld t.learnCfg 63 44 300
  lpm4 := lpmPut [] false (lpmKey 0x0A000000 8) 3 })
def hostKey : BitVec 192 := pack 192 [(2, 0, 2), (34, 3, 0x0A000001)]
def lpmP (addr len kind index tab : Nat) : BitVec 384 := pack 384 [(7, 0, len), (39, 8, addr), (137, 136, kind), (153, 138, index), (167, 160, tab)]
/-- A table with no place left for a key, and the LPM limit reached, take millions of entries: the first rests on the hash as well. -/
theorem meets_TableCommandsComplete :
    (rdy hosts Cat.hostAdd (hostE.setWidth 384) = true ∧ badHostEntry (hostE.setWidth 256) = false ∧
      (hosts.insertHost (entryKey (hostE.setWidth 256)) { entry := hostE, hit := 15 } 0).2 = some 8) ∧
    (rdy hosts Cat.hostDelete (hostKey.setWidth 384) = true ∧ hostKeyOf hostKey = some { typ := 2, val := 0x0A000001 } ∧
      (hostFind hosts.tables.host { typ := 2, val := 0x0A000001 }).isSome = true ∧
      hostFind conf.tables.host { typ := 2, val := 0x0A000001 } = none ∧ rdy conf Cat.hostDelete (hostKey.setWidth 384) = true) ∧
    (badLpm 2 (pack 136 [(7, 0, 8), (39, 8, 0x0A000000)]) 1 4095 true = false ∧ rdy hosts Cat.lpmAdd (lpmP 0x0A000000 8 1 4095 2) = true ∧
      Map.find (lpmTable hosts false) (lpmKey 0x0A000000 8) ≠ none ∧ lpmRoom hosts false = true) ∧
    (badLpm 2 (pack 136 [(7, 0, 8), (39, 8, 0x0A000000)]) 0 0 false = false ∧ rdy hosts Cat.lpmDelete (lpmP 0x0A000000 8 0 0 2) = true ∧
      Map.find (lpmTable conf false) (lpmKey 0x0A000000 8) = none ∧ rdy conf Cat.lpmDelete (lpmP 0x0A000000 8 0 0 2) = true) := by
  decide +kernel
theorem meets_lpm_full (n : Nat) (h : 2097152 ≤ n) :
    lpmRoom (withTables conf (fun t => { t with lpm4 := List.replicate n (0, { result := 0, loc := 0 }) })) false = false := by
  simp [lpmRoom, withTables]; omega
def searchP (key : Nat) (copy tab : Nat) : BitVec 384 := pack 384 [(309, 0, key), (317, 314, copy), (325, 318, tab), (383, 326, 9)]
def nextP (c : Nat) (tab copy n : Nat) : BitVec 384 := pack 384 [(63, 0, c), (127, 64, 128), (135, 128, tab), (139, 136, copy), (146, 140, n)]
/-- A flow key of 10.0.0.1 and 10.0.0.2 over TCP. -/
def flowKey : Nat := (pack 310 [(1, 0, 1), (21, 14, 6), (149, 22, 0x0A000001), (165, 150, 1000), (293, 166, 0x0A000002), (309, 294, 80)]).toNat
/-- A cursor was handed out before a warm reset. -/
def warmed : State := withDev (hosts.giveCursor { tab := 1, loc := 12, relocs := 0 }) (fun d => { d with cursorEpoch := 2 })
theorem meets_TableReadsComplete :
    (acts hosts Cat.search (searchP hostKey.toNat 0xF 1) [36 + copyQuad hosts 0xF] = true ∧ quadThere hosts (copyQuad hosts 0xF) = true ∧
      acts conf Cat.search (searchP hostKey.toNat 3 1) [39] = true ∧ quadThere hosts (copyQuad hosts 3) = true) ∧
    (lpmKeyOk false (BitVec.ofNat 310 (0x0A000000 * 256 + 8)) = true ∧
      acts hosts Cat.search (searchP (0x0A000000 * 256 + 8) 3 2) [39] = true ∧ acts hosts Cat.search (searchP 0 3 3) [39] = true) ∧
    ((flowKeyOf (BitVec.ofNat 310 flowKey)).isSome = true ∧ conf.fuses.member ≠ 3 ∧
      ∀ q < 4, acts conf Cat.search (searchP flowKey 0xF 4) (flowDoms q) = true) ∧
    (acts hosts Cat.next (nextP 0 1 3 64) [39] = true ∧ misaligned 128 = false ∧ badCursor hosts 1 0 = false ∧ oldCursor hosts 0 = false ∧
      acts hosts Cat.next (nextP 0 4 0 1) (flowDoms 0) = true ∧ hbmThere hosts 0 = true ∧
      badCursor warmed 1 (cursorOf 1 1) = false ∧ oldCursor warmed (cursorOf 1 1) = true ∧
      acts warmed Cat.next (nextP (cursorOf 1 1).toNat 1 3 64) [39] = true ∧ hosts.dev.nextCursor = 1 ∧
      ((tableBytes hosts 1 3).filter (fun y => decide ((cursorAt hosts 1 0).loc ≤ y.1))).drop 2 ≠ [] ∧
      ((tableBytes hosts 1 3).filter (fun y => decide ((cursorAt hosts 1 0).loc ≤ y.1))).drop 64 = []) ∧
    (acts hosts Cat.flushByPort (pack 384 [(31, 0, hdl 3 4), (43, 32, 0xFFF), (44, 44, 1), (55, 48, 1)]) [36, 37, 38, 39] = true ∧
      acts hosts Cat.flushByPort (pack 384 [(31, 0, hdl 3 4), (55, 48, 4)]) ((quadsThere hosts).flatMap flowDoms) = true) ∧
    (acts hosts Cat.tableInfo (pack 384 [(7, 0, 4), (11, 8, 3)]) (flowDoms 3) = true ∧ knownTable 0x1A = true ∧ copyThere hosts 0x1A 15 = true ∧
      acts hosts Cat.tableInfo (pack 384 [(7, 0, 0x1A), (11, 8, 15)]) [19] = true) := by decide +kernel
theorem meets_LongestPrefix : 0xFFFFFFFF < 2 ^ 32 ∧ (lpmLookup hosts.tables.lpm4 32 0x0A0B0C0D 32).any (fun r => r.result = 3) = true ∧
    lpmLookup hosts.tables.lpm4 32 0x0B000000 32 = none := by decide +kernel
theorem meets_HostInsertion : (hosts.insertHost { typ := 2, val := 0x0A000001 } { entry := hostE, hit := 15 } 0).2 = some 8 := by
  decide +kernel
def tawC (op copy t i : Nat) : BitVec 64 := pack 64 [(62, 60, op), (55, 52, copy), (47, 40, t), (31, 0, i)]
theorem meets_TableWindowComplete :
    (conf.hostUp = true ∧ (tawRun (tawC 0 0 0x11 4095) conf).2 = .ok ∧ (tawRun (tawC 1 0 0x11 4095) conf).2 = .ok ∧
      (tawRun (tawC 2 0 0x11 4095) conf).2 = .ok) ∧
    ((base .safe).confRun = false ∧ (tawRun (tawC 1 0 0x11 0) (base .safe)).2 = .badMode) ∧
    tawEntries 0x11 ≤ 4096 ∧ tawRefuses 0x11 (tawData conf (tawWidth 0x11)) = false ∧
    tawAbsent conf 0 0x11 4 0 = true ∧ tawAbsent conf 0 0x11 3 0 = false ∧ tawAbsent conf 1 0x18 3 0 = false ∧ isAcl 0x18 = true ∧
    conf.vers.stage = none := by decide +kernel
def learner (port mac : Nat) : State := { hosts.modQuad 1 (fun x => { x with
  learnQ := [{ vlan := 10, mac := BitVec.ofNat 48 mac, port := BitVec.ofNat 10 port }] }) with dev := { hosts.dev with mode := .run } }
def bundled : State := withDev conf (fun d => { d with bundle := some [1, 2] })
theorem meets_LearnAndRepairComplete :
    (((learner 4 5).quad 1).learnQ = [{ vlan := 10, mac := 5, port := 4 }] ∧ (learner 4 5).mode = .run ∧ (learner 4 5).port 4 ≠ none ∧
      hostFind (learner 4 5).tables.host { typ := 1, val := 10 * 2 ^ 48 + 5 } = none) ∧
    (hostFind hosts.tables.host { typ := 1, val := 10 * 2 ^ 48 + 0x0200_0000_0002 } = some (16, macE 0x0200_0000_0002 8 1) ∧
      isStatic (macE 0x0200_0000_0002 8 1) = true) ∧
    (hostFind (learner 8 0x0200_0000_0001).tables.host { typ := 1, val := 10 * 2 ^ 48 + 0x0200_0000_0001 } = some (12, macE 0x0200_0000_0001 4 0) ∧
      isStatic (macE 0x0200_0000_0001 4 0) = false ∧ frozen (macE 0x0200_0000_0001 4 0) = false ∧ onPort 8 (macE 0x0200_0000_0001 4 0) = false) ∧
    (let s := withTime (learner 4 5) (fun t => { t with dev := 5 * secUnit, tb := 1000000000000 * 2 ^ 32 })
     s.mode = .run ∧ (windowDue s).isSome = true ∧ (ageDue s).isSome = true) ∧
    0x1FFF < bankWords 0 ∧ (perQuad 0x14 = true ∧ quadThere conf 3 = true) ∧ hbmThere conf 3 = true ∧
    (perQuad 0x1A = false ∧ sliceThere conf 15 = true) ∧
    (0x3F33 / 4096 = 3 ∧ sliceThere conf (0x3F33 / 256 % 16) = true ∧ 0x10 ≤ 0x3F33 % 256 ∧ 0x3F33 % 256 ≤ 0x33) ∧
    (bundled.dev.bundle = some [1, 2] ∧ 0x2314 / 4096 = 2 ∧ hbmThere bundled (0x2314 / 256 % 16) = true ∧ 0x2314 % 256 = 0x14) := by decide +kernel

def staged0 : Stage := { rules := [], profiles := [], nodes := [], loaded := 0 }
def opened (g : Stage) : State := withVers conf (fun v => { v with stage := some g })
def job (w : Bool) (t : Option TimeVal) : CommitJob := { queue := 0, index := 0, waiting := w, limitNs := 0, switchAt := t, votes := [] }
def full : Stage := { staged0 with nodes := (List.range 64).map (fun i => (i, none)) }
def node0 : BitVec 128 := pack 128 [(127, 120, 0x4F), (111, 104, 0x01), (103, 88, 0x9999), (86, 80, 64), (69, 64, 0x3F)]
def img0 : List Byte := List.replicate 14 0 ++ [1]
/-- A microcode image that verifies rests on free values. -/
theorem meets_RuleSetCommandsComplete :
    (rdy conf Cat.rulesetOpen 0 = true ∧ conf.vers.stage = none) ∧ (rdy (opened staged0) Cat.rulesetOpen 0 = true ∧
      (opened staged0).vers.stage ≠ none) ∧
    (rdy (opened staged0) Cat.rulesetAbort 0 = true ∧ (opened staged0).vers.commit = none ∧
      (withVers (opened staged0) (fun v => { v with commit := some (job true none) })).vers.commit ≠ none) ∧
    (rdy conf Cat.rulesetAbort 0 = true ∧ conf.vers.commit = none) ∧ rdy conf Cat.versionStatusGet 0 = true ∧
    (rdy (opened staged0) Cat.keyProfileSet (pack 384 [(3, 0, 15)]) = true ∧ badProfile 0 0 = false ∧
      Map.find full.profiles 15 = none ∧ 64 ≤ full.profiles.length + full.nodes.length ∧ rdy (opened full) Cat.keyProfileSet (pack 384 [(3, 0, 15)]) = true) ∧
    (rdy (opened staged0) Cat.parseNodeSet (node0.setWidth 384) = true ∧ badNode (opened staged0) node0 = false) ∧
    (acts (opened staged0) Cat.csStageLoad (pack 384 [(63, 0, 64), (95, 64, 4096), (105, 96, 1)]) (storeDoms 1 conf) = true ∧
      segMask img0 = 1 ∧ (bitsSet 10 1).any (bankBusy (opened staged0)) = false ∧ csOk (opened staged0) img0 = false) ∧
    (rdy (opened staged0) Cat.rulesetCommit (pack 384 [(31, 0, 1000000), (32, 32, 1)]) = true ∧ drainSlot (opened staged0) = none) ∧
    (let s := withVers (opened staged0) (fun v => { v with slot1 := { v.slot1 with state := .draining } })
     rdy s Cat.rulesetCommit (pack 384 [(31, 0, 1), (32, 32, 1)]) = true ∧ rdy s Cat.rulesetCommit 0 = true ∧ drainSlot s ≠ none) := by
  decide +kernel
theorem meets_VersionRowsComplete :
    switchDue (withVers conf (fun v => { v with commit := some (job false (some 0)) })) = some (job false (some 0), 0) ∧
    (let s := withVers conf (fun v => { v with slot1 := { v.slot1 with state := .draining } })
     drainSlot s = some true ∧ s.inFlight true = 0 ∧ s.canHold 0 = true) ∧
    (let s := withTime (withVers conf (fun v => { v with slot0 := { v.slot0 with state := .draining } })) (fun t => { t with tb := 1000000 * 2 ^ 32 })
     drainSlot s = some false ∧ s.vers.slowRaised = false ∧ s.vers.drainNs + 1000000 ≤ s.tbNs) ∧
    ((withVers conf (fun v => { v with commit := some (job true none) })).vers.commit = some (job true none) ∧ (job true none).limitNs ≤ conf.tbNs) := by
  decide +kernel
theorem meets_VersionNumbers : (VerState.reset).nextVer ≠ 0 ∧ ({ VerState.reset with nextVer := 0xFFFF } : VerState).nextVer ≠ 0 := by decide +kernel
def rule0 (del : Bool) : StagedRule := { value := some 1, mask := some 2, action := some 3, delete := del }
theorem meets_RuleVisibility : (rule0 true).delete = true ∧ AclEntry.free.vis true = false ∧ (rule0 false).action ≠ none := by decide +kernel

def bufI (a i : Nat) : BitVec 384 := pack 384 [(63, 0, a), (69, 64, i)]
/-- A record of profile 5 for the flow of `flowKey`, and what FLOW_INSTALL is given for it. -/
def rec0 : BitVec 1024 := pack 1024 [(1019, 1014, 5), (1013, 1012, 1), (1011, 1004, 6), (991, 864, 0x0A000001), (863, 736, 0x0A000002), (735, 720, 1000), (719, 704, 80)]
def block0 : List Byte := leBytes 128 rec0.toNat
def flowSlot0 : FlowSlot := { record := rec0, fp := 0, age := 0, reachable := true }
def profiled : State := withTables conf (fun t => { t with profiles := [(5, pack 512 [(511, 511, 1)])] })
/-- A state in which the slots of a key's buckets hold a record in the first of them. -/
def known : State := withTables profiled (fun t => { t with flows := [((candidates profiled (flowHashOf profiled (recKey rec0))).headD 0, flowSlot0)] })
theorem meets_flow_found : ∃ n, flowFind known (recKey rec0) = some (n, flowSlot0) := by
  have h : candidates known = candidates profiled := rfl
  have h' : flowHashOf known = flowHashOf profiled := rfl
  obtain ⟨a, r, hr⟩ : ∃ a r, candidates profiled (flowHashOf profiled (recKey rec0)) = a :: r := by
    unfold candidates bucketOf; simp only; split_ifs <;> exact ⟨_, _, rfl⟩
  refine ⟨a, ?_⟩
  have hf : flowAt known a = some flowSlot0 := by simp [flowAt, known, withTables, hr, Map.find, flowSlot0]
  unfold flowFind; rw [h, h', hr]; simp [hf, flowSlot0]
/-- The clauses in which no slot can be taken, and in which a SNAT port is taken, need full buckets and full records. -/
theorem meets_FlowCommandsComplete :
    (acts conf Cat.flowProfileSet (bufI 64 63) [44, 45, 46, 47] = true ∧ badFlowProfile conf 0 = false ∧ conf.fuses.member ≠ 3) ∧
    (let s := withTables profiled (fun t => { t with flows := [(100, flowSlot0)] })
     profileHeld s 5 = true ∧ acts s Cat.flowProfileSet (bufI 64 5) [44, 45, 46, 47] = true ∧
       fld (0 : BitVec 512) 511 507 ≠ fld (profileAt s 5) 511 507) ∧
    acts conf Cat.flowProfileGet (bufI 64 5) [44] = true ∧
    (acts conf Cat.flowStatusGet (pack 384 [(1, 0, 3)]) [47] = true ∧ hbmThere conf 3 = true) ∧
    ((∀ q < 4, acts profiled Cat.flowInstall (bufI 64 0) (flowDoms q) = true) ∧ badBlock profiled rec0 = false ∧
      blockSnat profiled rec0 = none) ∧
    ((∀ q < 4, acts known Cat.flowInstall (bufI 64 1) (flowDoms q) = true) ∧ badBlock known rec0 = false ∧
      blockSnat known rec0 = none) ∧
    rdy conf Cat.flowInstall (bufI 64 0) = true ∧
    rdy { conf with fuses := { conf.fuses with member := 3 } } Cat.flowInstall (bufI 64 0) = true ∧
    ((∀ q < 4, acts known Cat.flowDelete ((BitVec.ofNat 310 flowKey).setWidth 384) (flowDoms q) = true) ∧
      flowKeyOf (BitVec.ofNat 310 flowKey) = some (recKey rec0, true)) ∧
    (let s := withTables profiled (fun t => { t with flows := [(100, flowSlot0)] })
     acts s Cat.flowGet (pack 384 [(63, 0, 64), (153, 128, 100)]) (flowDoms 0) = true ∧ hbmThere s (locQuad 100) = true ∧
       flowAt s 100 = some flowSlot0 ∧ recFlowId rec0 = 0 ∧ flowAt s 33554431 = none ∧
       acts s Cat.flowGet (pack 384 [(63, 0, 64), (153, 128, 33554431)]) (flowDoms 3) = true) := by
  decide +kernel
theorem meets_flow_new : flowFind profiled (blockKey rec0).1 = none ∧ (∃ t loc, profiled.installBlock rec0 none = .done t loc) := by
  have h0 : profiled.tables.flows = [] := by decide +kernel
  have h : ∀ l, flowAt profiled l = none := fun l => by simp [flowAt, h0, Map.find]
  have h1 : ∀ b, (freeIn profiled b).head? = some b := fun b => by simp [freeIn, bucketOf, h]
  have h2 : blockXlate profiled rec0 = none := by decide +kernel
  constructor
  · simp [flowFind, h]
  · have h3 : ∀ l, noWay profiled (.free l) none = false := fun l => by
      have h0 : profiled.quads = [] := by decide +kernel
      simp [noWay, pinnedWays, State.part, State.quad, h0, Map.val, Map.find, Quad.reset, Partition.reset, Spot.loc]
    simp [State.installBlock, State.vacated, spotFor, h1, h2, h3, State.takeSpot]
theorem meets_not_parked (l : Nat) : parkedAt known l flowSlot0 = false := by
  have h : known.allFetches = [] := by decide +kernel
  simp only [parkedAt, h, List.any_nil, Bool.false_or]; split
  · cases flowAt known _ <;> rfl
  · rfl

/-- A frame of 600 bytes from port 4 in class 5. -/
def frame0 : Frame :=
  { kind := .received, bytes := List.replicate 600 0, inLen := 600, attr := 0, inPort := 4, cls := 5, queue := 5, colour := .green, version := 1, flowId := 0, stamp := 0
    stampTb := 0, stampQual := 0, outcome := 0, ptpOff := none, l3Off := none, estimate := 600, headerLength := false, started := false, cutThrough := false
    errored := false, account := .shared, cells := 3, sent := 0, vlan := none, group := none, pend := [], flood := false, voqCells := 0
    occupancy := 0, spilled := false, spillAt := [(7, 3)], gateWaited := false }
def hdr0 : FlowHdr :=
  { frame := frame0, orig := [], via := none, dest := .nexthop 0, slot := false, v6 := false, proto := 6, scope := 0, srcAddr := 1, dstAddr := 2
    srcPort := 3, dstPort := 4, tcpFlags := 0, l4Off := none, h := 0, upset := .none, ctx := 0 }
def running : State := ported run [(4, upLink (port0 3)), (8, upLink (port0 6))] .up
theorem meets_InfuserRowsComplete :
    (((running.modPart 15 (fun x => { x with input := [hdr0] })).part 15).input = [hdr0] ∧
      infuserRuns (running.modPart 15 (fun x => { x with input := [hdr0] })) (15 / 4) = true) ∧
    (let s := withTime (running.modPart 15 (fun x => { x with fetches := [{ loc := 7, issueNs := 0, waiting := false, install := false, parked := [hdr0] }] })) (fun t => { t with tb := 20000 * 2 ^ 32 })
     (fetchAt s 15 7).isSome = true ∧ infuserRuns s 3 = true ∧ 0 + 20000 ≤ s.tbNs) ∧
    (sweepDue (withTime running (fun t => { t with dev := 2 * secUnit })) 15 = some secUnit ∧ sweepDue running 15 = none ∧
      infuserRuns running 3 = true) := by decide +kernel
theorem meets_BufferCommandsComplete :
    (acts conf Cat.bufClassSet (pack 384 [(31, 0, 0x012FFFFF), (34, 32, 7), (95, 64, 0x88880040)]) ((List.range 16).map (4 + ·)) = true ∧
      badBufClass 0x88880040 = false ∧ acts conf Cat.bufClassSet (pack 384 [(31, 0, hdl 2 15), (34, 32, 7), (95, 64, 0x88880040)]) [19] = true ∧
      conf.fuses.member ≠ 3) ∧
    acts conf Cat.bufClassGet (pack 384 [(31, 0, hdl 2 15), (34, 32, 7)]) [19] = true ∧
    (acts running Cat.voqFlush (pack 384 [(31, 0, hdl 5 32)]) [4] = true ∧ ((running.discardVoq 32).1.voq 32).state = .onDie) ∧
    (let s := running.modVoq 32 (fun y => { y with state := .spilling, spill := [frame0] })
     acts s Cat.voqFlush (pack 384 [(31, 0, hdl 5 32)]) [4] = true ∧ ((s.discardVoq 32).1.voq 32).state ≠ .onDie) ∧
    ((running.modVoq 122919 (fun y => { y with state := .flushing, walk := [(7, 3)] })).voq (8192 * 15 + 39)).state = .flushing := by decide +kernel
def gate0 (start : Nat) : GateList := { base := 0, cycle := 1000, entries := [(0xFE, 500), (0xFF, 500)], start := start }
def gated (oper pend : Option GateList) (dev : Nat) : State :=
  withTime (running.modPort 4 (fun x => { x with gateOper := oper, gatePend := pend })) (fun t => { t with dev := dev })
def gateP (cycle n : Nat) : BitVec 384 := pack 384 [(191, 160, cycle), (138, 128, n), (127, 64, 64), (63, 32, hdl 8 4)]
theorem meets_GateCommandsComplete :
    (acts running Cat.gateListSet (gateP 1000000000 1024) [4] = true ∧ misaligned 64 = false ∧ badTime 0 = false ∧
      (running.port 4).any (fun x => x.gatePend.isNone) = true ∧ ((gated none (some (gate0 0)) 0).port 4).any (fun x => x.gatePend.isSome) = true ∧
      acts (gated none (some (gate0 0)) 0) Cat.gateListSet (gateP 1000 1) [4] = true ∧
      (gateEntries 1 (leBytes 8 0xFF_000000_00000008)).any badGateEntry = false ∧ (gateEntries 1 (leBytes 8 7)).any badGateEntry = true) ∧
    (acts running Cat.gateListGet (pack 384 [(31, 0, hdl 8 4), (63, 32, 128), (127, 64, 64)]) [4] = true ∧
      128 + 8 * (gateCount none + gateCount none) ≤ 128) ∧
    (acts running Cat.gateListAbort (pack 384 [(31, 0, hdl 8 4)]) [4] = true ∧
      acts (gated none (some (gate0 (2000 * nsUnit))) 0) Cat.gateListAbort (pack 384 [(31, 0, hdl 8 4)]) [4] = true ∧
      (gate0 (2000 * nsUnit - 1)).start < 0 + 2000 * nsUnit ∧ 0 + 2000 * nsUnit ≤ (gate0 (2000 * nsUnit)).start) ∧
    (((gated none (some (gate0 10)) 10).port 4).any (fun x => x.gatePend = some (gate0 10)) = true ∧
      ((gated (some (gate0 0)) none (1000 * nsUnit)).port 4).any (fun x => x.gateAt (1000 * nsUnit) = some (gate0 0)) = true ∧
      ((gate0 0).segAt (1000 * nsUnit)).isSome = true) := by decide +kernel
def pausing (f : Port → Port) (ns : Nat) : State :=
  withTime (running.modPort 4 (fun x => f { x with cfg := x.cfg ||| 0x0000_FF00_0000_8000 })) (fun t => { t with tb := ns * 2 ^ 32 })
def stormy (act : Nat) : State := pausing (fun x => { x with
  guard := setFld (setFld x.guard 63 62 (2 + act)) 61 48 1, pause := [(5, { untilNs := some 3000000, since := some 0, lastXoff := some 0, storm := false })] }) 2000000
theorem meets_PauseRowsComplete :
    (macUp running 4 = true ∧ (bitsSet 8 0x20).all (fun c => bitAt ((Port.create 3 16).cfg) (40 + c)) = false ∧
      ((pausing id 0).port 4).any (fun x => (bitsSet 8 0x20).all (fun c => bitAt x.cfg (40 + c)) = true ∧ bitAt x.cfg 15 = true) = true ∧
      macUp (pausing id 0) 4 = true ∧ (running.port 4).any (fun x => bitAt x.cfg 15 = false) = true) ∧
    (((pausing (fun x => { x with link := { x.link with holdUntil := some 10 } }) 0).port 4).any (fun x => x.held = true) = true ∧
      (running.port 4).any (fun x => x.held = false) = true) ∧
    ((pausing (fun x => { x with pause := [(5, { untilNs := some 3, since := some 0, lastXoff := some 0, storm := false })] }) 3).port 4).any
      (fun x => (x.pauseOf 5).untilNs = some 3) = true ∧
    (((stormy 0).port 4).any (fun x => storms (stormy 0) x 5 = true ∧ bitAt x.guard 62 = false) = true ∧
      ((stormy 1).port 4).any (fun x => storms (stormy 1) x 5 = true ∧ bitAt x.guard 62 = true) = true) ∧
    ((pausing (fun x => { x with guard := setFld x.guard 47 34 2, pause := [(5, { untilNs := none, since := none, lastXoff := some 0, storm := true })] }) 2000000).port 4).any
      (fun x => (x.pauseOf 5).storm = true ∧ (x.pauseOf 5).lastXoff = some 0 ∧ 0 + 1000000 * fld x.guard 47 34 ≤ 2000000) = true ∧
    ((pausing (fun x => { (x.modIpc 5 (fun i => { i with paused := true, xoffNs := some 0 })) with cfg := x.cfg ||| 0xFF00000000 }) 100000).port 4).any
      (fun x => (x.ipcOf 5).paused = true ∧ bitAt x.cfg 37 = true ∧ (x.ipcOf 5).xoffNs = some 0 ∧ 0 + quantaNs x 65535 / 2 ≤ 100000) = true := by
  decide +kernel
def rx0 (n : Nat) (bs : List Byte) (fcs start : Bool) : RxFrame :=
  { port := 4, bytes := bs ++ List.replicate n 0, codeError := false, fcsGood := fcs, started := start, detAgo := 0, p := 0, h := 0
    cwCorrected := 3, cwUncorrected := 0, hdrRate := false, pipe := 0, upset := .none }
def mac808 : List Byte := List.replicate 12 0 ++ [0x88, 0x08]
theorem meets_FrameReceiveCompletes :
    (macUp running 4 = true ∧ (rx0 63 [] true false).bytes.length < 64) ∧
    ((running.port 4).any (fun x => macError x (rx0 64 [] false false) = some 4 ∧
      macError x { rx0 64 [] true true with cwUncorrected := 1 } = some 5 ∧ macError x (rx0 1600 [] true true) = some 3 ∧
      macError x (rx0 64 [] true false) = none ∧ macError x (rx0 50 mac808 true false) = none) = true ∧ beAt (rx0 50 mac808 true false).bytes 12 2 = 0x8808) ∧
    beAt (rx0 64 [] true false).bytes 12 2 ≠ 0x8808 ∧
    (running.port 4).any (fun x => rxRefused running 4 x false = none) = true ∧ (running.port 4).any (fun x => rxRefused running 4 x true = some 38) = true := by
  decide +kernel

def queued (s : State) : State := s.modVoq 32 (fun y => { y with onDie := [{ frame0 with queue := 0 }] })
theorem meets_FabricRowsComplete :
    ((queued running).mode = .run ∧ ((queued running).port 4).any (fun x => x.egrCells + 4 ≤ x.cellsMax ∧ grantOf (queued running) 4 x = some (0, 0)) = true ∧
      4 ≤ egrFree (queued running) 0 ∧ badEcc (.corrected 7) = false ∧ badEcc (.uncorrectable 7) = true) ∧
    (let s := State.sendGranted 0 4 0 4 (queued running)
     ((s.fabric.filter (fun c => c.outSlice.toNat == 0))[2]?).isSome = true) ∧
    (6 ≤ (6 : BitVec 3).toNat ∧ (5 : BitVec 3).toNat < 6 ∧ run.mode ≠ .reset ∧ quadThere run 3 = true ∧
      bitAt (run.quad 3).planesDown 5 = false ∧ ((run.modQuad 3 (fun x => { x with planesDown := 1 })).quad 3).planesDown ≠ 0) ∧
    (let s := withTime (run.modReorder 15 0 (fun r => { r with waitNs := some 0 })) (fun t => { t with tb := 2001 * 2 ^ 32 })
     ((s.slice 15).reorderOf 0).waitNs = some 0 ∧ 0 + 2000 < s.tbNs) := by decide +kernel
def mcFrame : Frame := { frame0 with pend := [2, 3], account := .shared, group := some 9 }
def mcRun (since first : Option Nat) (granted : List Nat) (tb : Nat) : State :=
  withTime (run.modMcq 0 5 (fun _ => { frames := [mcFrame], headSince := since, firstGrant := first, granted := granted })) (fun t => { t with tb := tb })
def spilling (ns : Nat) : State :=
  withTime ((run.modVoq 122919 (fun y => { y with state := .spilling, spill := [frame0] })).setMcr 15 2 7 [frame0]) (fun t => { t with tb := ns * 2 ^ 32 })
def ring (caddy free : Nat) : State :=
  run.modQuad 3 (fun x => { x with spillReady := true, caddy := [(0, caddy)], ring := [(5000, free)] })
theorem meets_MulticastAndSpillComplete :
    (holdOver (mcRun (some 0) none [] 1) 0 ((mcRun (some 0) none [] 1).slice 0 |>.mcqOf 5) = false ∧
      newGrants (mcRun (some 0) none [] 1) ((mcRun (some 0) none [] 1).slice 0 |>.mcqOf 5) mcFrame = [2, 3] ∧
      passDue (mcRun (some 0) (some 1) [2, 3] 1) ((mcRun (some 0) (some 1) [2, 3] 1).slice 0 |>.mcqOf 5) mcFrame = true ∧
      planesUp (mcRun (some 0) (some 1) [2, 3] 1) 0 [2, 3] ≠ [] ∧
      passDue (mcRun (some 0) (some 1) [2] 1) ((mcRun (some 0) (some 1) [2] 1).slice 0 |>.mcqOf 5) mcFrame = false) ∧
    (let s := mcRun (some 0) none [] (200000 * 2 ^ 32)
     holdOver s 0 ((s.slice 0).mcqOf 5) = true ∧ ((s.slice 0).mcqOf 5).frames = [mcFrame]) ∧
    (let u := (spilling 1000).spillRefill 3
     (u.voq 122919).state = .spilling ∧ (u.voq 122919).spill ≠ [] ∧ (u.voq 122919).onDieCells < 256 ∧ mayRead u 15 (u.voq 122919).spill = true ∧
       mcrOf u 15 2 7 = [frame0] ∧ mayRead u 15 [frame0] = true ∧ frame0.size ≤ egrFree u 2 ∧ planesUp u 15 [2] ≠ [] ∧
       (u.voq 122918).spill = []) ∧
    (((ring 1023 1).quad 3).spillReady = true ∧ Runs.count ((ring 1023 1).quad 3).caddy < 1024 ∧ 0 < Runs.count ((ring 1023 1).quad 3).ring ∧
      3072 < Runs.count ((ring 3073 1).quad 3).caddy) ∧
    ((run.modQuad 3 (fun x => { x with spillBuilding := true })).quad 3).spillBuilding = true := by decide +kernel

def sending (f : Frame) (trunc : Option Nat) (most : Nat) : State :=
  running.modPort 4 (fun x => { x with tx := some { frame := f, arrived := 3, inSlice := 0 }, txTrunc := trunc, txMax := most })
def waitingOut : State := running.modPort 4 (fun x => x.modEgr 0 (fun k => { k with queue := [{ frame := { frame0 with queue := 0 }, arrived := 3, inSlice := 0 }] }))
def ptpP (p n mode : Nat) : BitVec 384 := pack 384 [(319, 256, 64), (255, 224, hdl 3 p), (223, 208, n), (184, 182, mode)]
def carding (n since ns : Nat) : State :=
  withTime (running.modSlice 0 (fun x => { x with pcCfg := setFld x.pcCfg 63 63 1, pcQueue := List.replicate n (0, since) })) (fun t => { t with tb := ns * 2 ^ 32 })
theorem meets_TransmitRowsComplete :
    ((running.port 4).any (fun x => txFree running 4 x = true ∧ classes.filter (selectable running 4 x 0) = [] ∧ chooseClass x [] = none) = true) ∧
    ((waitingOut.port 4).any (fun x => txFree waitingOut 4 x = true ∧ classes.filter (selectable waitingOut 4 x 0) = [0] ∧
      chooseClass (x.wake [0]) [0] = some 0 ∧ ((x.wake [0]).egrOf 0).queue ≠ []) = true) ∧
    (((sending frame0 none 600).port 4).any (fun x => x.txTrunc = none ∧ frame0.bytes.length ≤ x.txMax ∧
        x.tx.any (fun e => e.short = false ∧ e.frame.errored = false ∧ e.frame.cutThrough = false) = true) = true ∧
      (sending frame0 none 600).mode = .run) ∧
    ((sending frame0 (some 100) 600).port 4).any (fun x => x.txTrunc ≠ none) = true ∧
    ((sending { frame0 with errored := true } none 600).port 4).any (fun x => x.tx.any (fun e => e.frame.errored)) = true ∧
    ((sending { frame0 with cutThrough := true } none 599).port 4).any (fun x => x.txMax < frame0.bytes.length) = true ∧
    ((carding 64 0 0).mode = .run ∧ bitAt ((carding 64 0 0).slice 0).pcCfg 63 = true ∧ 64 ≤ ((carding 64 0 0).slice 0).pcQueue.length ∧
      ((carding 1 0 10000).slice 0).pcQueue = [(0, 0)] ∧ 0 + 10000 ≤ (carding 1 0 10000).tbNs) ∧
    (acts running Cat.ptpTx (ptpP 4 60 3) [4] = true ∧ badPtpTx (BitVec.ofNat 32 (hdl 3 4)) 64 60 0 0 3 0 running = false ∧ linkUp running 4 = true ∧
      acts ports2 Cat.ptpTx (ptpP 4 60 3) [4] = true ∧ linkUp ports2 4 = false) := by decide +kernel

def arec (ready : Bool) : ARec := { epoch := 1, seq := 3, slots := 1, bits := 0, hostTaken := false, portSent := none, readyNs := if ready then some 0 else none, portTaken := false, ready := ready }
def auditing (f : Chain → Chain) (cfg : BitVec 64) (ns : Nat) : State :=
  withTime { running with audit := { running.audit with nonce := some 1, epochs := 1, awaiting := none, cfg := cfg, chains := [(3, f Chain.reset)] } }
    (fun t => { t with tb := ns * 2 ^ 32 })
def audP (a n c : Nat) : BitVec 384 := pack 384 [(63, 0, a), (95, 64, n), (97, 96, c)]
theorem meets_AuditCommandsComplete :
    acts run Cat.audCertGet (bufP 64 8192) [3] = true ∧
    (acts run Cat.audBufPost (audP 4096 1048576 3) [3] = true ∧ chainThere run 3 = true ∧
      64 ≤ ((auditing (fun x => { x with posted := List.replicate 64 (0, 4096) }) 0 0).chain 3).posted.length ∧
      acts (auditing (fun x => { x with posted := List.replicate 64 (0, 4096) }) 0 0) Cat.audBufPost (audP 4096 4096 3) [3] = true) ∧
    acts run Cat.audBufReclaim (pack 384 [(1, 0, 3)]) [3] = true ∧ acts run Cat.audStatusGet (pack 384 [(1, 0, 3)]) [3] = true := by decide +kernel
def hostCfg : BitVec 64 := 1 <<< 63
def portCfg : BitVec 64 := pack 64 [(62, 62, 1), (61, 55, 3), (51, 42, 4)]
theorem meets_AuditRowsComplete :
    ((auditing id 0 10000000).epochOpen = true ∧ ((auditing id 0 10000000).chain 3).cpNs + 10000000 ≤ (auditing id 0 10000000).tbNs) ∧
    ((((auditing (fun x => { x with spool := [arec false] }) 0 0).chain 3).spool).find? (fun r => !r.ready) = some (arec false) ∧
      run.audit.signFailed = false) ∧
    (let b : ExportBuf := { addr := 4096, len := 4096, startNs := 0 }
     let s := auditing (fun x => { x with spool := [arec true], buf := some b }) hostCfg 1000000
     (s.chain 3).buf = some b ∧ s.hostUp = true ∧ hostExport s = true ∧ bufDone s.tbNs b (s.chain 3).forHost = true ∧
       s.canHold (fld s.audit.cfg 15 0) = true) ∧
    (let s := auditing (fun x => { x with spool := [arec true] }) portCfg 10000
     s.mode = .run ∧ portExport s = true ∧ exportReady s = true ∧ fitting (expBatch s) (s.chain 3).forPort = [arec true] ∧
       batchDue s (s.chain 3) [arec true] = true) := by decide +kernel
def sctrP (q en th : Nat) : BitVec 384 := pack 384 [(31, 0, hdl 13 511), (63, 48, q), (64, 64, en), (191, 128, th)]
def sampled (armed : Bool) : State := running.setSctr 511 { count := 10, event := 0, queue := 0, en := true, armed := armed, thresh := 10 }
def cap0 (skid unit : Nat) : Capture :=
  { flowId := 0, version := 1, port := 960, skid := BitVec.ofNat 8 skid, unit_ := BitVec.ofNat 4 unit, pipe := 0, mpc := 0 }
theorem meets_TelemetryComplete :
    (rdy run Cat.ctrSnapshot (pack 384 [(63, 0, 64), (79, 64, 65535), (88, 80, 1)]) = true ∧ 65535 + 1 ≤ 65536) ∧
    (acts run Cat.sctrSet (sctrP 0 1 (2 ^ 48 - 1)) [19] = true ∧ eventDefined 0 = true) ∧
    acts run Cat.sctrGet (pack 384 [(31, 0, hdl 13 511)]) [19] = true ∧
    ((sctrOf (sampled true) 511).armed = true ∧ (sctrOf (sampled false) 511).armed = false ∧ (sctrOf (sampled true) 511).en = true ∧
      (sctrOf (sampled true) 511).thresh.toNat ≤ (sctrOf (sampled true) 511).count.toNat ∧ (sampled true).confRun = true ∧ sliceThere run 15 = true) ∧
    (captureFits 511 (sctrOf (sampled true) 511) (cap0 24 1) = true ∧ captureFits 511 (sctrOf (sampled true) 511) (cap0 25 1) = false ∧
      captureFits 511 (sctrOf (sampled true) 511) (cap0 0 10) = false) := by decide +kernel
theorem meets_RegisterReads :
    ((base .lockout).dev.pcieUp = true ∧ (base .lockout).mode ≠ .reset) ∧
    (let s := { conf with power := { conf.power with doms := [] } }
     windowDom 0xB00000 = some 10 ∧ s.domOn 10 = false ∧ s.mode ≠ .lockout ∧ s.mode ≠ .reset ∧ s.dev.pcieUp = true) := by
  decide +kernel
theorem meets_RegisterWritesComplete :
    conf.hostUp = true ∧ (0x101 % 4 ≠ 0 ∧ (match targetAt conf 0x1000 with | .nothing => true | _ => false) = true) ∧
    (match targetAt conf 0x0000 with | .readOnly _ _ => true | _ => false) = true ∧
    (match targetAt conf 0x6000 with | .reg r => r.takes && decide (0x6000 + 4 ≠ r.base + 4 * r.dwords) | _ => false) = true ∧
    (match targetAt conf 0x6004 with | .reg r => r.takes && decide (0x6004 + 4 = r.base + 4 * r.dwords) | _ => false) = true ∧
    (match targetAt (base .lockout) 0xC200 with | .reg r => !r.takes | _ => false) = true ∧
    (conf.confRun = true ∧ 10 ≤ (10 : BitVec 32).toNat % 65536 ∧ (9 : BitVec 32).toNat % 65536 < 10) ∧
    (conf.mode = .configure ∧ run.mode ≠ .boot ∧ run.mode ≠ .configure ∧ run.hostUp = true) ∧
    (sliceThere running 0 = true ∧ running.port 5 = none ∧ running.port 4 ≠ none ∧ running.sliceWritable 0 = true ∧
      fld (0x10000 : BitVec 64) 31 16 ≠ 0 ∧ fld (0xFFFF : BitVec 64) 31 16 = 0) := by decide +kernel

/-! ### Worked examples of the manual -/

/-- After R14: VOQ (3, 517, 6), and on a CX-1024 its port is absent. -/
theorem test_voq_example : voqIndex 3 517 6 = 28718 ∧ (mkHandle 5 5 28718).toNat = 0x0550702E ∧
    hAbsent { conf with fuses := { conf.fuses with member := 2 } } .voq 28718 = true ∧ hAbsent conf .voq 28718 = false := by decide +kernel
/-- After R55: fixed taps. -/
theorem test_taps_example : tapsOk (4, 50, 9) = true ∧ tapsOk (6, 52, 10) = false := by decide +kernel
/-- After R66: 2,079 points, and the signed bounds of both axes. -/
theorem test_eye_example :
    eyePoints (pack 256 [(111, 104, 0x84), (103, 96, 124), (95, 88, 4), (87, 80, 0xC0), (79, 72, 64), (71, 64, 4)]) = 2079 := by decide +kernel
/-- After R82: an XOFF of 0xFFFF at 400 Gb/s lasts 83.9 µs. -/
theorem test_quanta_example : quantaNs (Port.create 2 16) 65535 = 83885 := by decide +kernel
/-- After R88: port 512 destroyed goes from generation 0x03 to 0x04. -/
theorem test_rebreak_example :
    (State.destroyPort { ported conf [(512, Port.create 3 16)] .off with portGen := [(512, 3)] } 512).portGenOf 512 = 4 ∧
    (mkHandle 4 3 512).toNat = 0x04300200 := by decide +kernel
/-- After R108: 64 tokens, and two more after 2 ms. -/
theorem test_punt_example : puntTokens { Port.create 3 16 with puntTok := 0 } 2000000 / 1000000000 = 2 ∧
    (Port.create 3 16).puntTok / 1000000000 = 64 := by decide +kernel
/-- After R213: −9,036 bytes and 2,000 ns at 10,000,000 kb/s give −6,536; at 7,300 ns, +89. -/
theorem test_shaper_example :
    (Shaper.refill { entry := pack 128 [(127, 127, 1), (119, 96, 16384), (95, 64, 10000000)], tokens := -9036 * 8000000, lastNs := 0 } 2000).tokens =
      -6536 * 8000000 ∧
    (Shaper.refill { entry := pack 128 [(127, 127, 1), (119, 96, 16384), (95, 64, 10000000)], tokens := -9036 * 8000000, lastNs := 0 } 7300).tokens =
      89 * 8000000 := by decide +kernel
/-- After R216: the costs of classes 2 and 5. -/
theorem test_cost_example :
    let x := ((Port.create 2 16).modEgr 2 (fun k => { k with reg := 0x100 })).modEgr 5 (fun k => { k with reg := 0x400 })
    costOf x 2 { frame0 with bytes := List.replicate 1000 0 } = 66846720 ∧ costOf x 5 { frame0 with bytes := List.replicate 1000 0 } = 16711680 := by
  decide +kernel
/-- After R220: START of a list committed at 812.437 996 500 s. -/
theorem test_gate_example : startOf (500 * secUnit) 1000000 (812 * secUnit + 437996500 * nsUnit) = 812 * secUnit + 439000000 * nsUnit := by
  decide +kernel
/-- After R245: the stamp of a frame on lanes 64 and 65. -/
theorem test_stamp_example :
    timeOf (rxInstant { Port.create 2 16 with dRx := 3686400 } { rx0 64 [] true false with p := 629146, h := 740164 }
      (812 * secUnit + 437996587 * nsUnit + nsUnit / 2)) = pack 128 [(127, 64, 812), (63, 32, 437996510), (31, 16, 0x4000)] := by decide +kernel
/-- R34, R239: SYNCE_OUT follows the lane clock of its port in RUN, and is held low once the device is in SAFE. -/
theorem test_synce : (let s := { running with synce := [(1, pack 32 [(31, 31, 1), (25, 16, 4), (12, 0, 16)])] }
    synceOut s 1 = some (4, 16) ∧ synceOut s 0 = none ∧ synceOut { s with dev := { s.dev with mode := .safe } } 1 = none) := by
  decide +kernel
/-- R34, R35, R78: what a port's transmitter sends. -/
theorem test_line : lineSignal running 4 = .idles ∧ lineSignal { running with dev := { running.dev with mode := .safe } } 4 = .localFault ∧
    lineSignal { running with dev := { running.dev with mode := .boot } } 4 = .electricalIdle ∧
    lineSignal (trained .align) 4 = .remoteFault := by decide +kernel
/-- Table 11.5: MEMBER is the lowest field of CAP, and Table 11.6: DEV_MODE. -/
theorem test_reads : readBar0 conf 0x000 = some (pack 32 [(31, 24, conf.fuses.stepping.toNat), (23, 16, 1), (3, 0, conf.fuses.member.toNat)]) ∧
    readBar0 conf 0x103 = readBar0 conf 0x100 ∧ (readBar0 conf 0x100).map (fun v => fld v 2 0) = some (modeCode .configure) := by
  decide +kernel
/-- After R288: PORT_CFG[517]. -/
theorem test_address_example : portBase 517 = 0xC01400 := by decide +kernel

end Sys2Proof.Tests
end

section
/-! PROOFS. Laws of bit fields, handles, VOQ indices and home quadrants (R5, R11, R12, R13), and with them how objects
are numbered. -/

namespace Sys2Proof.Machine

/-! ### Fields of a word and of a packed word -/

/-- A field holds a number of its own width. -/
theorem fld_lt {n : Nat} (x : BitVec n) (hi lo : Nat) : fld x hi lo < 2 ^ (hi + 1 - lo) :=
  Nat.mod_lt _ (Nat.two_pow_pos _)

theorem testBit_fld {n : Nat} (x : BitVec n) (hi lo i : Nat) :
    (fld x hi lo).testBit i = (decide (i < hi + 1 - lo) && x.toNat.testBit (lo + i)) := by
  simp only [fld, Nat.testBit_mod_two_pow, Nat.testBit_shiftRight]

/-- The bits of the fold behind `pack`: those of the start value, and those that a field sets. -/
theorem testBit_foldl_fields (fs : List (Nat × Nat × Nat)) (a j : Nat) :
    (fs.foldl (fun a f => a ||| ((f.2.2 % 2 ^ (f.1 + 1 - f.2.1)) <<< f.2.1)) a).testBit j =
      (a.testBit j || fs.any (fun f => decide (f.2.1 ≤ j ∧ j ≤ f.1) && f.2.2.testBit (j - f.2.1))) := by
  induction fs generalizing a with
  | nil => simp
  | cons f fs ih =>
    have hwidth : (decide (f.2.1 ≤ j) && decide (j - f.2.1 < f.1 + 1 - f.2.1)) = decide (f.2.1 ≤ j ∧ j ≤ f.1) := by
      rw [← Bool.decide_and, decide_eq_decide]
      omega
    rw [List.foldl_cons, ih, List.any_cons, Nat.testBit_or, Nat.testBit_shiftLeft, Nat.testBit_mod_two_pow,
      ← Bool.and_assoc, hwidth, Bool.or_assoc]

theorem testBit_pack (n : Nat) (fs : List (Nat × Nat × Nat)) (j : Nat) :
    (pack n fs).toNat.testBit j =
      (decide (j < n) && fs.any (fun f => decide (f.2.1 ≤ j ∧ j ≤ f.1) && f.2.2.testBit (j - f.2.1))) := by
  rw [pack, BitVec.toNat_ofNat, Nat.testBit_mod_two_pow, testBit_foldl_fields, Nat.zero_testBit, Bool.false_or]

/-- The bits of a field that no other field of the word overlaps are those of the number put there. -/
theorem testBit_pack_of_mem {n hi lo v i : Nat} {fs : List (Nat × Nat × Nat)} (hn : hi < n) (hmem : (hi, lo, v) ∈ fs)
    (hapart : ∀ f ∈ fs, f = (hi, lo, v) ∨ f.1 < lo ∨ hi < f.2.1) (hwidth : i < hi + 1 - lo) :
    (pack n fs).toNat.testBit (lo + i) = v.testBit i := by
  rw [testBit_pack, decide_eq_true (by omega : lo + i < n), Bool.true_and, Bool.eq_iff_iff, List.any_eq_true]
  constructor
  · rintro ⟨f, hf, hset⟩
    rw [Bool.and_eq_true, decide_eq_true_eq] at hset
    obtain ⟨hin, hset⟩ := hset
    rcases hapart f hf with rfl | hbelow | habove
    · simpa using hset
    · omega
    · omega
  · intro hset
    have hin : lo + i ≤ hi := by omega
    exact ⟨(hi, lo, v), hmem, by simp [hin, hset]⟩

/-- A packed field reads back, cut to its width, when no other field of the word overlaps it. -/
theorem fld_pack_of_mem {n hi lo v : Nat} {fs : List (Nat × Nat × Nat)} (hn : hi < n) (hmem : (hi, lo, v) ∈ fs)
    (hapart : ∀ f ∈ fs, f = (hi, lo, v) ∨ f.1 < lo ∨ hi < f.2.1) :
    fld (pack n fs) hi lo = v % 2 ^ (hi + 1 - lo) := by
  apply Nat.eq_of_testBit_eq
  intro i
  rw [testBit_fld, Nat.testBit_mod_two_pow]
  by_cases hwidth : i < hi + 1 - lo
  · rw [testBit_pack_of_mem hn hmem hapart hwidth]
  · simp [hwidth]

/-! ### Handles (R12, R13) -/

theorem mkHandle_gen (g : BitVec 8) (t i : Nat) : fld (mkHandle g t i) 31 24 = g.toNat :=
  (fld_pack_of_mem (v := g.toNat) (by decide) (by simp) (by simp)).trans (Nat.mod_eq_of_lt g.isLt)

theorem mkHandle_type (g : BitVec 8) {t : Nat} (i : Nat) (ht : t < 16) : fld (mkHandle g t i) 23 20 = t :=
  (fld_pack_of_mem (v := t) (by decide) (by simp) (by simp)).trans (Nat.mod_eq_of_lt ht)

theorem mkHandle_index (g : BitVec 8) (t : Nat) {i : Nat} (hi : i < 2 ^ 20) : fld (mkHandle g t i) 19 0 = i :=
  (fld_pack_of_mem (v := i) (by decide) (by simp) (by simp)).trans (Nat.mod_eq_of_lt hi)

/-- What BAD_HANDLE looks at (R13): the generation, the type, the range of the index. -/
theorem hBad_iff (k : HKind) (h : Handle) :
    hBad k h = true ↔ fld h 31 24 = 0 ∨ fld h 23 20 ≠ hType k ∨ hInRange k (fld h 19 0) = false := by
  simp [hBad, or_assoc]

/-! ### VOQ indices (R11) -/

/-- A VOQ's device index is its slice's base and its index in the slice. -/
theorem voqIndex_eq (sl p c : Nat) : voqIndex sl p c = 8192 * sl + (8 * p + c) := Nat.add_assoc ..

theorem voqInSlice_lt {p c : Nat} (hp : p < 1024) (hc : c < 8) : 8 * p + c < 8192 := by omega

theorem voqIndex_lt {sl p c : Nat} (hsl : sl < 16) (hp : p < 1024) (hc : c < 8) : voqIndex sl p c < 131072 := by
  rw [voqIndex_eq]
  omega

theorem voqSlice_voqIndex (sl : Nat) {p c : Nat} (hp : p < 1024) (hc : c < 8) : voqSlice (voqIndex sl p c) = sl := by
  rw [voqIndex_eq, voqSlice]
  omega

theorem voqPort_voqIndex (sl : Nat) {p c : Nat} (hp : p < 1024) (hc : c < 8) : voqPort (voqIndex sl p c) = p := by
  rw [voqIndex_eq, voqPort]
  omega

theorem voqClass_voqIndex (sl p : Nat) {c : Nat} (hc : c < 8) : voqClass (voqIndex sl p c) = c := by
  rw [voqIndex_eq, voqClass]
  omega

/-! ### Home quadrants (R5) -/

theorem homeQuad_lt_two {s : State} (fh : BitVec 64) (hm : s.fuses.member = 2) : homeQuad s fh < 2 := by
  rw [homeQuad, if_pos hm]
  exact fld_lt fh 63 63

theorem homeQuad_lt_four {s : State} (fh : BitVec 64) (hm : s.fuses.member ≠ 2) : homeQuad s fh < 4 := by
  rw [homeQuad, if_neg hm]
  exact fld_lt fh 63 62

theorem quadThere_homeQuad (s : State) (fh : BitVec 64) : quadThere s (homeQuad s fh) = true := by
  rw [quadThere, decide_eq_true_eq]
  split
  next hm => exact homeQuad_lt_two fh hm
  next hm => exact homeQuad_lt_four fh hm

/-- Settles O34: a packed field reads back as it went in, a VOQ's index is a mixed-radix number, and the bits of the
flow hash that choose a home are as many as the member has quadrants for. -/
theorem numbering : Obligations.Numbering := by
  unfold Obligations.Numbering
  refine ⟨fun g t i ht hi => ?handle, fun k h hbad => ?refusal, fun sl p c hsl hp hc => ?voq, fun s fh => ?home⟩
  case handle => exact ⟨mkHandle_gen g t i, mkHandle_type g i ht, mkHandle_index g t hi⟩
  case refusal => exact (hBad_iff k h).2 (hbad.imp_right .inl)
  case voq =>
    exact ⟨voqIndex_eq sl p c, voqInSlice_lt hp hc, voqIndex_lt hsl hp hc, voqSlice_voqIndex sl hp hc,
      voqPort_voqIndex sl hp hc, voqClass_voqIndex sl p hc⟩
  case home => exact ⟨quadThere_homeQuad s fh, homeQuad_lt_two fh⟩

end Sys2Proof.Machine
end

section
/-! PROOFS. TIME_INC (R228): which values wait for their tick, and how both counts go on once the new increment applies. -/

namespace Sys2Proof.Machine

/-! ### The write (R228) -/

theorem inRange_iff (v lo hi : Nat) : inRange v lo hi = true ↔ lo ≤ v ∧ v ≤ hi := by
  rw [inRange, Bool.and_eq_true, decide_eq_true_eq, decide_eq_true_eq]

theorem writeInc_of_inRange {s : State} {v : BitVec 64} (hup : s.hostUp = true)
    (hv : inRange v.toNat 0x130000000 0x150000000 = true) :
    writeInc v s = (s.latchLow 0x6000 v).queueWrite (.inc v) := by
  simp [writeInc, State.timeWritable, hup, hv]

theorem writeInc_of_not_inRange {s : State} {v : BitVec 64} (hup : s.hostUp = true)
    (hv : ¬inRange v.toNat 0x130000000 0x150000000 = true) :
    writeInc v s = (s.latchLow 0x6000 v).raise 0x1004 0x020 0 1 0x6000 := by
  simp [writeInc, State.timeWritable, State.timeReject, hup, hv]

theorem exec_timeIncWrite (v : BitVec 64) (s : State) : exec (.timeIncWrite v) s = .next (writeInc v s) := rfl

/-! ### The ticks (R224, R227) -/

/-- Ticks at which no slice's copy slips. -/
theorem exec_timeTick_of_no_slips (n : Nat) (s : State) : exec (.timeTick ⟨n, []⟩) s = .next (ticks n s) := rfl

/-- The writes that wait apply at the first tick, after its increment; the ticks after it only count. -/
theorem ticks_succ (n : Nat) (s : State) : ∃ x, ticks (n + 1) s =
    ((s.time.writes.foldl State.applyWrite (s.modTime (fun t => { t.count 1 with writes := [] }))).modTime
      (TimeState.count n)).modTime (fun t => { t with crossed := x, ticks := t.ticks + (n + 1) }) :=
  ⟨_, rfl⟩

/-- With a TIME_INC waiting, the first tick counts by the old increment and the others by the new one. -/
theorem ticks_succ_of_inc (n : Nat) {s : State} {v : BitVec 64} (hw : s.time.writes = [.inc v]) :
    ∃ x, ticks (n + 1) s = { s with time := { s.time with
      dev := s.time.dev + s.time.inc.toNat + n * v.toNat, tb := s.time.tb + s.time.inc.toNat + n * v.toNat, inc := v
      writes := [], crossed := x, ticks := s.time.ticks + (n + 1) } } := by
  obtain ⟨x, hticks⟩ := ticks_succ n s
  rw [hw, List.foldl_cons, List.foldl_nil] at hticks
  exact ⟨x, by simp [hticks, State.applyWrite, State.modTime, TimeState.count]⟩

/-- Settles O29: a write is queued or rejected by its range, and at its tick only the increment changes beside the counts. -/
theorem timeIncrement : Obligations.TimeIncrement := by
  unfold Obligations.TimeIncrement
  refine ⟨fun s v hup => ⟨fun hin => ?queued, fun hout => ?rejected⟩, fun s v n hw => ?applied⟩
  case queued => rw [exec_timeIncWrite, writeInc_of_inRange hup ((inRange_iff ..).2 hin)]
  case rejected =>
    have hv : ¬inRange v.toNat 0x130000000 0x150000000 = true := by
      rw [inRange_iff]
      omega
    rw [exec_timeIncWrite, writeInc_of_not_inRange hup hv]
  case applied =>
    obtain ⟨x, hticks⟩ := ticks_succ_of_inc n hw
    exact ⟨x, by rw [exec_timeTick_of_no_slips, hticks]⟩

end Sys2Proof.Machine
end

section
/-! PROOFS. What every step keeps: the queue behind the command, the soundness of the state, and the mode but for the transitions of
Table 16.6. One lemma says it of every command that does not remove power; the statements read it off. -/

namespace Sys2Proof.Machine

/-! ### Rules of commands that keep the state -/

theorem orBadMode_keeps {a : State} {act : State → Res} (s : State) (h : KeepsR a (act s)) (hK : Keeps a s) :
    KeepsR a (orBadMode act s) := by
  unfold orBadMode
  split
  · exact hK
  · exact h

theorem queueCreateBody_keeps (a : State) (sq eq : Addr) (cq : Handle) (poll : BitVec 30) (dom : BitVec 2) (sqExp eqExp : BitVec 5)
    (vec : BitVec 8) (irq : Bool) : (queueCreateBody sq eq cq poll dom sqExp eqExp vec irq).Keeps a := by
  intro s hK
  refine ⟨?_, hK⟩
  unfold queueCreateBody
  dsimp only
  split
  · exact hK
  · split
    · exact hK
    · exact (State.clearQueueCounters_keeps s _ hK).of rfl rfl rfl rfl rfl rfl rfl

theorem cqCreateBody_keeps (a : State) (base : Addr) (poll : BitVec 30) (exp : BitVec 5) (vec : BitVec 8) (irq : Bool) (coal : Nat) :
    (cqCreateBody base poll exp vec irq coal).Keeps a := by
  intro s hK
  refine ⟨?_, hK⟩
  unfold cqCreateBody
  dsimp only
  split
  · exact hK
  · exact (State.clearSlots_keeps s _ 16 17 hK).of rfl rfl rfl rfl rfl rfl rfl

/-! ### Every command -/

/-- An outcome whose next state, where it has one, moves the mode by Table 16.6 at most. -/
def Stays (s : State) (o : Host.Outcome State Fault Refusal) : Prop := ∀ t, o = .next t → Moves s t

theorem Stays.next {s t : State} (h : Moves s t) : Stays s (.next t) := by
  intro u hu
  cases hu
  exact h

theorem Stays.keeps {s t : State} (h : Keeps s t) : Stays s (.next t) := .next h.moves

theorem Stays.command {s : State} {row : CmdRow} {sub : Sub} {param : BitVec 384} {b : Body} (h : b.Keeps s) :
    Stays s (.next (runCommand row sub param b s)) := .keeps (runCommand_keeps row sub param b s h (.refl s))

theorem Stays.fault_or {s t : State} {r : Fault} {c : Prop} [Decidable c] (h : Keeps s t) : Stays s (if c then .fault r else .next t) := by
  split
  · intro u hu; cases hu
  · exact .keeps h

theorem exec_stays (c : Instr) (s : State) (h : removesPower c = false) : Stays s (exec c s) := by
  cases c
  case powerOn | supplyReset => cases h
  case modeSet sub target =>
    exact .next (runCommand_moves _ _ _ _ _ (fun u hu => ⟨modeSetAct_moves _ _ u hu, hu.moves⟩) (.refl s))
  case bundleLoad sub buf len data r =>
    exact .next (runCommand_moves _ _ _ _ _ (fun u hu => ⟨loadAct_moves _ _ u hu, hu.moves⟩) (.refl s))
  case registerWrite off en v => exact .next (writeRegister_moves off en v s (.refl s))
  case rstCtlWrite v => exact .next (writeRstCtl_moves v s (.refl s))
  case resetNLow => exact .next (resetLow_moves s (.refl s))
  case resetNRise => exact .next (resetRise_moves s (.refl s))
  case perstAssert => exact .next (perstLow_moves s (.refl s))
  case resetExit => exact .next (leaveReset_moves s (.refl s))
  case refclkReturn g => exact .next (refclkBack_moves _ s (.refl s))
  case bootBundleLoaded r => exact .next (bundleLoaded_moves r s (.refl s))
  case faultMessage m => exact .next (takeMessage_moves m s (.refl s))
  case domainHoldoffExpiry | domainDropDone | domainWakeDone | planeFail => exact .fault_or (by simp)
  case queuePoll | lapReread | commandStart | completionWrite | cqPoll | eventRingPoll | faultRecordPoll | irqHoldoffEnd |
      dmaRetry | adminEnable | adminDisable | strainerEnable | strainerDisable | flush | strainerBankSwap | strainerItemWritten |
      strainerNoticePoll | tawRead | tawWrite | tawDelete | domCfgWrite => exact .keeps (by simp)
  case faultWindowEnd | fwStatusLatch | supplyDipStart | supplyDipEnd | pwrResetCauseRead | hostIfReset | bootStart | perstDeassert |
      refclkLoss | thermtrip | tapInstruction | d2dLinkError => exact .keeps (by simp)
  case portEnable | portDisable | signalDetectAssert | signalDetectDeassert | autonegComplete | trainComplete | alignLock |
      alignmentLost | rsFaultReceived | linkUp | stampCalibration | trainTimeoutExpiry | alignTimeout | backoffExpiry | recoverEntry |
      recoverExit | recoverTimeout | freezeTimeout | testAcquired | serWindowEnd | flapHoldDown | holdTimeExpiry |
      eyeScanPointDone => exact .keeps (by simp)
  case frameReceive | pfcReceive | pauseReceive | pauseExpiry | pfcStorm | pfcStormEnd | pfcXoffRepeat | puntMeterWrite |
      sampleCfgWrite | infuserHeader | fetchReturn | flowFetchTimeout | flowSweep | learnRequest | moveWindowBoundary | ageSweep |
      csParityRepair | tableParityRepair | commitResume | commitWaitLimit | versionDrained | verDrainSlow |
      switchTime => exact .keeps (by simp)
  case grant | fabricCell | fabricSeqTimeout | transmitDecision | frameTransmit | spillReadback | caddyRefill | caddyWriteback |
      spillBuildDone | flushWalkDone | mcPass | mcSplit | gateListStart | gateEntryChange | postcardFrame | sctrCrossing |
      sctrCapture => exact .keeps (by simp)
  case timeIncWrite | timeAdjWrite | timeSet | timeCtlWrite | timeNowLatch | ppsInLatch | ppsInLatchRelease | timeTick |
      timeCheckpoint | ppsInEdge | ppsSeenTimeout | ppsOutRise | ppsOutFall | refLock | refLoss | holdValidExpiry |
      auditCheckpointCount | auditCheckpointTimer | checkpointSigned | auditBufHandback |
      auditExportFrame => exact .keeps (by simp)
  case queueCreate => exact .command (queueCreateBody_keeps s _ _ _ _ _ _ _ _ _)
  case cqCreate => exact .command (cqCreateBody_keeps s _ _ _ _ _ _)
  case queueStatusGet sub queue =>
    refine .command fun u hu => ⟨?_, hu⟩
    dsimp only
    split <;> simp [hu]
  case pwrVote sub domain take =>
    refine .command fun u hu => ⟨pwrVoteAct_keeps _ _ _ u hu, ?_⟩
    dsimp only
    split <;> exact hu
  case laneStatusGet sub buf port lane =>
    exact .command fun u hu => ⟨State.drawn_keeps _ (State.writeBuf_keeps _ _ _ (State.sampleLane_keeps u _ hu)), hu⟩
  case cqDestroy | portDestroy | flushByPort | flowInstall | flowDelete =>
    exact .command fun u hu => ⟨by simp [hu], orBadMode_keeps u (by simp [hu]) hu⟩
  case nop | queueDestroy | protSet | portCreate | portStatusGet | portAttrSet | portHoldClear | laneCfgSet | laneCfgGet |
      laneAdaptCtl | laneRetireClear | laneSerCfg | laneTestCtl | eyeScanStart | eyeScanStatus |
      eyeScanAbort => exact .command fun u hu => by simp [hu]
  case hostAdd | hostDelete | search | next | lpmAdd | lpmDelete | tableInfo | rulesetOpen | rulesetCommit | rulesetAbort |
      versionStatusGet | keyProfileSet | parseNodeSet | csStageLoad | flowProfileSet | flowProfileGet | flowGet |
      flowStatusGet => exact .command fun u hu => by simp [hu]
  case bufClassSet | bufClassGet | voqFlush | gateListSet | gateListGet | gateListAbort | ptpTx | tsCalGet | audCertGet | audBufPost |
      audBufReclaim | audStatusGet | ctrSnapshot | sctrSet | sctrGet | faultAck | faultListGet | faultWindowSet | faultInject |
      pwrStatusGet | selfTest | bundleInfoGet | flashUpdate => exact .command fun u hu => by simp [hu]

/-- A command that removes power acts in every state, and keeps the queue and the soundness of the state. -/
theorem exec_of_removesPower (c : Instr) (s : State) (h : removesPower c = true) :
    ∃ t, exec c s = .next t ∧ t.dev.mode = .reset ∧ t.pending = s.pending ∧ (Sound s → Sound t) := by
  cases c
  case powerOn => exact ⟨_, rfl, rfl, rfl, State.powerReset_sound s 1 false 0⟩
  case supplyReset rail => exact ⟨_, rfl, supplyReset_mode rail s, supplyReset_pending rail s, supplyReset_sound rail s⟩
  all_goals cases h

/-- What every command keeps. -/
theorem exec_keeps_pending_sound {c : Instr} {s t : State} (h : exec c s = .next t) : t.pending = s.pending ∧ (Sound s → Sound t) := by
  cases hp : removesPower c with
  | true =>
    obtain ⟨u, hu, -, hq, hs⟩ := exec_of_removesPower c s hp
    rw [hu] at h
    cases h
    exact ⟨hq, hs⟩
  | false =>
    obtain ⟨hq, -, hs⟩ := exec_stays c s hp t h
    exact ⟨hq, hs⟩

/-! ### The statements -/

/-- Settles O2: a command keeps the queue whether it removes power or not. -/
theorem queueLeftAlone : Obligations.QueueLeftAlone := by
  unfold Obligations.QueueLeftAlone
  exact fun c s t h => (exec_keeps_pending_sound h).1

/-- The queue is no part of what soundness asks. -/
theorem Sound.withPending {s : State} (h : Sound s) (l : List Instr) : Sound { s with pending := l } :=
  ⟨h.counters, h.gens, h.svn, h.ioam, h.synce⟩

/-- Settles O1: by the two branches of a step. -/
theorem stepRunsFrontCommand : Obligations.StepRunsFrontCommand := by
  unfold Obligations.StepRunsFrontCommand
  refine ⟨fun c rest s => rfl, fun s h => ?_⟩
  unfold step
  rw [h]

/-- Settles O3: a step idles, or runs a command, which keeps the state sound. -/
theorem soundnessKept : Obligations.SoundnessKept := by
  unfold Obligations.SoundnessKept
  intro s t hs hstep
  unfold step at hstep
  split at hstep
  · cases hstep
    exact hs
  · exact (exec_keeps_pending_sound hstep).2 (hs.withPending _)

/-- Settles O4: the reset state holds no counter, no generation, no fuse and no register value that could break the invariant. -/
theorem resetIsSound : Obligations.ResetIsSound := by
  unfold Obligations.ResetIsSound
  exact ⟨⟨rfl, rfl, by decide, ioam_zero, rfl⟩, rfl⟩

/-- Settles O5: what every command keeps, and what the two power rows do. -/
theorem modeTransitions : Obligations.ModeTransitions := by
  unfold Obligations.ModeTransitions
  refine ⟨fun c s t h hp => ?_, fun c s hp => ?_⟩
  · obtain ⟨-, hmode, -⟩ := exec_stays c s hp t h
    exact hmode
  · obtain ⟨t, ht, hmode, -, -⟩ := exec_of_removesPower c s hp
    exact ⟨t, ht, hmode⟩

/-- No transition of Table 16.6 leads out of LOCKOUT. -/
theorem modeArrow_lockout (m : Mode) : modeArrow .lockout m = false := by
  cases m <;> rfl

/-- Settles O6: Table 16.6 has no arrow out of LOCKOUT. -/
theorem lockoutStays : Obligations.LockoutStays := by
  unfold Obligations.LockoutStays
  intro c s t hlock hp h
  obtain ⟨-, hmode, -⟩ := exec_stays c s hp t h
  rw [hlock, modeArrow_lockout] at hmode
  exact hmode.resolve_right Bool.false_ne_true

end Sys2Proof.Machine
end

section
/-! PROOFS. The faults: how a class escalates (R349), and how occurrences count in windows (R347). -/

namespace Sys2Proof.Machine

/-! ### The final class (R349) -/

theorem finalClass_succ (s : State) (m : BitVec 128) (n cls : Nat) :
    finalClass s m (n + 1) cls = if escalates s m cls then finalClass s m n (cls + 1) else cls := rfl

/-- From LOCKOUT on no condition of R349 holds. -/
theorem escalates_of_four_le {s : State} {m : BitVec 128} {cls : Nat} (h : 4 ≤ cls) : escalates s m cls = false := by
  have h1 : (cls == 1) = false := by simp; omega
  have h2 : (cls == 2) = false := by simp; omega
  have h3 : (cls == 3) = false := by simp; omega
  simp [escalates, h1, h2, h3]

/-- The class climbs through levels at which a condition holds, to the first at which none does: there is fuel up to LOCKOUT. -/
theorem finalClass_spec (s : State) (m : BitVec 128) (n cls : Nat) (hcls : cls ≤ 4) (hfuel : 4 ≤ n + cls) :
    cls ≤ finalClass s m n cls ∧ finalClass s m n cls ≤ 4 ∧ escalates s m (finalClass s m n cls) = false ∧
      ∀ k, cls ≤ k → k < finalClass s m n cls → escalates s m k = true := by
  induction n generalizing cls with
  | zero =>
    have hfour : 4 ≤ cls := by omega
    exact ⟨le_refl _, hcls, escalates_of_four_le hfour, fun k hlo hhi => absurd hhi (Nat.not_lt.2 hlo)⟩
  | succ n ih =>
    rw [finalClass_succ]
    split
    next hup =>
      have hne : cls ≠ 4 := by
        rintro rfl
        rw [escalates_of_four_le (le_refl 4)] at hup
        exact Bool.false_ne_true hup
      obtain ⟨hlo, hhi, hstop, hall⟩ := ih (cls + 1) (by omega) (by omega)
      refine ⟨by omega, hhi, hstop, fun k hk hkf => ?_⟩
      rcases Nat.eq_or_lt_of_le hk with rfl | hlt
      · exact hup
      · exact hall k hlt hkf
    next hdown =>
      exact ⟨le_refl _, hcls, by simpa using hdown, fun k hlo hhi => absurd hhi (Nat.not_lt.2 hlo)⟩

/-- Settles O18: by induction on the levels that are left. -/
theorem escalation : Obligations.Escalation := by
  unfold Obligations.Escalation
  exact fun s m cls hcls => finalClass_spec s m 4 cls hcls (Nat.le_add_right 4 cls)

/-! ### Windows (R347) -/

/-- The window that a first occurrence opens. -/
def FWindow.opened (s : State) (m : BitVec 128) : FWindow :=
  { source := BitVec.ofNat 16 (msgSource m), kind := BitVec.ofNat 10 (msgKind m), gen := BitVec.ofNat 8 (msgGen m), count := 1
    endNs := s.tbNs + 1000000 * (windowOf s (msgKind m)).1 }

theorem FWindow.of_opened (s : State) (m : BitVec 128) : FWindow.of m (FWindow.opened s m) = true := by
  have hsource : msgSource m % 2 ^ 16 = msgSource m := Nat.mod_eq_of_lt (fld_lt m 15 0)
  have hkind : msgKind m % 2 ^ 10 = msgKind m := Nat.mod_eq_of_lt (fld_lt m 39 30)
  have hgen : msgGen m % 2 ^ 8 = msgGen m := Nat.mod_eq_of_lt (fld_lt m 47 40)
  simp only [FWindow.of, FWindow.opened, BitVec.toNat_ofNat, hsource, hkind, hgen, beq_self_eq_true, Bool.and_self]

theorem countOccurrence_beyond {s : State} {m : BitVec 128} {w : FWindow} (hw : (openWindows s).find? (FWindow.of m) = some w)
    (h : (windowOf s (msgKind m)).2 < w.count + 1) : countOccurrence s m =
      ({ s with faults := { s.faults with windows := (openWindows s).filter (fun x => !FWindow.of m x) } }, true) := by
  simp only [countOccurrence, hw, if_pos h]

theorem countOccurrence_within {s : State} {m : BitVec 128} {w : FWindow} (hw : (openWindows s).find? (FWindow.of m) = some w)
    (h : w.count + 1 ≤ (windowOf s (msgKind m)).2) : countOccurrence s m =
      ({ s with faults := { s.faults with windows := (openWindows s).map (fun x =>
        if FWindow.of m x then { x with count := x.count + 1 } else x) } }, false) := by
  simp only [countOccurrence, hw, if_neg (Nat.not_lt.2 h)]

/-- A first occurrence is not promoted, and opens its window, whether another is evicted for it or not. -/
theorem countOccurrence_first {s : State} {m : BitVec 128} (hw : (openWindows s).find? (FWindow.of m) = none) :
    (countOccurrence s m).2 = false ∧ FWindow.opened s m ∈ (countOccurrence s m).1.faults.windows := by
  simp only [countOccurrence, hw]
  split
  · simp [FWindow.opened]
  · cases s.faults.evictNs with
    | none => simp [FWindow.opened]
    | some t => by_cases hquiet : s.tbNs < t + 1000000000 <;> simp [FWindow.opened, hquiet]

/-- Settles O19: the three branches of the window step. -/
theorem faultWindows : Obligations.FaultWindows := by
  unfold Obligations.FaultWindows
  refine ⟨fun s m w hw => ⟨fun hbeyond => ?beyond, fun hwithin => ?within⟩, fun s m hw => ?first⟩
  case beyond =>
    rw [countOccurrence_beyond hw hbeyond]
    refine ⟨rfl, fun x hx => ?_⟩
    simpa using (List.mem_filter.1 hx).2
  case within =>
    rw [countOccurrence_within hw hwithin]
    exact ⟨rfl, rfl⟩
  case first =>
    obtain ⟨hkept, hopened⟩ := countOccurrence_first hw
    exact ⟨hkept, _, hopened, FWindow.of_opened s m, rfl, rfl⟩

end Sys2Proof.Machine
end

section
/-! PROOFS. The checks of a command in execution (R316), what its completion owes (R301), and the window of a submission ring
(R298). -/

namespace Sys2Proof.Machine

/-! ### Checks and completion -/

/-- The first check that fails completes the command with its status. -/
theorem runCommand_of_firstStatus {s : State} {row : CmdRow} {sub : Sub} {param : BitVec 384} {e : Exec} {b : Body} {st : Status}
    (hr : s.mode ≠ .reset) (hl : s.mode ≠ .lockout) (he : s.findExec sub.queue.toNat sub.index = some e)
    (ho : e.opcode.toNat = row.opcode) (hp : e.param = param) (hb : e.begun = false) (hst : firstStatus s row e b = some st) :
    runCommand row sub param b s = s.refused sub e st := by
  unfold runCommand State.actOn
  simp [hr, hl, he, ho, hp, hb, hst, State.refused]

/-- Settles O8: each status is the first of `firstStatus` whose condition holds. -/
theorem checksInOrder : Obligations.ChecksInOrder := by
  unfold Obligations.ChecksInOrder
  intro s row sub param e b hr hl he ho hp hb badHandle absent missing
  have hrun : ∀ st, firstStatus s row e b = some st → runCommand row sub param b s = s.refused sub e st :=
    fun st => runCommand_of_firstStatus hr hl he ho hp hb
  have hfirst : firstStatus s row e b =
      if s.mode == .safe && !row.modes.contains .safe then some .badMode
      else if badHandle then some .badHandle
      else if b.bad s then some .badParam
      else if e.stale then some .stale
      else if absent then some .unitAbsent
      else if missing then some .notFound
      else none := by
    subst hp
    rfl
  refine ⟨fun hsafe hrow => hrun _ (by rw [hfirst, hsafe, hrow]; rfl), fun hmode => ?_⟩
  have htakes : (s.mode == .safe && !row.modes.contains .safe) = false := by
    rcases hmode with h | h
    · rw [beq_eq_false_iff_ne.2 h, Bool.false_and]
    · rw [h, Bool.not_true, Bool.and_false]
  rw [htakes] at hfirst
  refine ⟨fun h1 => hrun _ ?_, fun h1 h2 => hrun _ ?_, fun h1 h2 h3 => hrun _ ?_, fun h1 h2 h3 h4 => hrun _ ?_,
    fun h1 h2 h3 h4 h5 => hrun _ ?_⟩ <;> simp [*]

/-- Settles O7: the completion joins its ring's, and the command leaves its queue. -/
theorem completionIsOwed : Obligations.CompletionIsOwed := by
  unfold Obligations.CompletionIsOwed
  intro s n q e st rlen result hq hvotes hretired
  simp only [State.finish, State.complete, hq, State.endExec, hretired, hvotes, Bool.false_eq_true, if_false, foldNats, List.foldl_nil,
    beq_iff_eq]
  rfl

/-! ### Rings as updates of their queue -/

@[simp] theorem State.queue_modQueue_self (s : State) (n : Nat) (f : Queue → Queue) : (s.modQueue n f).queue n = (s.queue n).map f := by
  rw [State.queue_modQueue, if_pos rfl]

@[simp] theorem State.queue_countQueue (s : State) (n m slot k : Nat) : (s.countQueue n slot k).queue m = s.queue m := rfl

theorem State.takeWindow_of_owned {s : State} {n : Nat} {q : Queue} {e : Entry} {es : List Entry} (hq : s.queue n = some q)
    (hf : q.fetched = e :: es) (ho : entryO e = true) : s.takeWindow n = s := by
  simp [State.takeWindow, hq, hf, ho]

theorem State.takeWindow_of_not_owned {s : State} {n : Nat} {q : Queue} {e : Entry} {es : List Entry} (hq : s.queue n = some q)
    (hf : q.fetched = e :: es) (ho : entryO e = false) : s.takeWindow n =
      (s.modQueue n (fun q => { q with fetched := [], windowed := false })).countQueue n 4 (es.length + 1) := by
  simp [State.takeWindow, hq, hf, ho]

/-- A poll whose entry is ready makes what it read the window. -/
theorem State.takeRead_poll_owned (s : State) (n : Nat) {q : Queue} {e : Entry} (es : List Entry) (hw : q.windowed = false)
    (ho : entryO e = true) : s.takeRead n q (e :: es) =
      s.modQueue n (fun q => { q with fetched := (e :: es).take 8, windowed := true, failedRead := .none }) := by
  simp [State.takeRead, hw, ho]

theorem State.takeRead_poll_not_owned (s : State) (n : Nat) {q : Queue} {e : Entry} (es : List Entry) (hw : q.windowed = false)
    (ho : entryO e = false) : s.takeRead n q (e :: es) = s.modQueue n (fun q => { q with failedRead := .none }) := by
  simp [State.takeRead, hw, ho]

/-- A read that extends a window whose first entry is ready. -/
theorem State.takeRead_window {s : State} {n : Nat} {q : Queue} {f : Entry} {fs : List Entry} (es : List Entry) (hq : s.queue n = some q)
    (hw : q.windowed = true) (hf : q.fetched = f :: fs) (ho : entryO f = true) : s.takeRead n q es =
      s.modQueue n (fun q => { q with fetched := q.fetched ++ es.take (8 - q.fetched.length), failedRead := .none }) := by
  unfold State.takeRead
  rw [if_pos hw]
  refine State.takeWindow_of_owned (es := fs ++ es.take (8 - q.fetched.length)) (by rw [State.queue_modQueue_self, hq]; rfl) ?_ ho
  dsimp only
  rw [hf, List.cons_append]

/-- Settles O12: a poll of either kind, a later read, and the window's first entry. -/
theorem readWindow : Obligations.ReadWindow := by
  unfold Obligations.ReadWindow
  refine ⟨fun s n q e es hq hw => ?poll, fun s n q f fs es hq hw hf ho => ?later, fun s n q e es hq hf => ?front⟩
  case poll =>
    cases ho : entryO e with
    | true => exact ⟨_, by rw [State.takeRead_poll_owned s n es hw ho, State.queue_modQueue_self, hq]; rfl, rfl, fun _ => rfl, nofun⟩
    | false => exact ⟨_, by rw [State.takeRead_poll_not_owned s n es hw ho, State.queue_modQueue_self, hq]; rfl, rfl, nofun, fun _ => rfl⟩
  case later =>
    refine ⟨_, by rw [State.takeRead_window es hq hw hf ho, State.queue_modQueue_self, hq]; rfl, rfl, fun hlen => ?_⟩
    dsimp only
    rw [List.length_append, List.length_take]
    omega
  case front => exact ⟨State.takeWindow_of_owned hq hf, State.takeWindow_of_not_owned hq hf⟩

end Sys2Proof.Machine
end

section
/-! PROOFS. Tables and versions: the longest prefix (R132), a HOST insertion (R130), the numbers of versions (R111), what a staged
change does to an entry (R113), and the Table Access Window (R125 to R127). -/

namespace Sys2Proof.Machine

/-! ### The longest prefix (R132) -/

/-- The prefix of `n` bits of an address of `bits` bits, as its route is indexed. -/
def lpmPrefix (bits addr n : Nat) : Nat := lpmKey (addr / 2 ^ (bits - n) * 2 ^ (bits - n)) n

theorem lpmPrefix_zero {bits addr : Nat} (h : addr < 2 ^ bits) : lpmPrefix bits addr 0 = lpmKey 0 0 := by
  rw [lpmPrefix, Nat.sub_zero, Nat.div_eq_of_lt h, Nat.zero_mul]

theorem lpmLookup_succ (t : Tbl LpmRoute) (bits addr n : Nat) : lpmLookup t bits addr (n + 1) =
    (Map.find t (lpmPrefix bits addr (n + 1))).or (lpmLookup t bits addr n) := by
  rw [lpmLookup, lpmPrefix]
  split
  next r h => rw [h]; rfl
  next h => rw [h]; rfl

/-- What a lookup finds from a length down: the route of the longest prefix that has one. -/
theorem lpmLookup_eq_some {t : Tbl LpmRoute} {bits addr : Nat} (haddr : addr < 2 ^ bits) {len : Nat} {r : LpmRoute}
    (h : lpmLookup t bits addr len = some r) : ∃ n ≤ len, Map.find t (lpmPrefix bits addr n) = some r ∧
      ∀ m, n < m → m ≤ len → Map.find t (lpmPrefix bits addr m) = none := by
  induction len with
  | zero => exact ⟨0, le_refl _, by rw [lpmPrefix_zero haddr]; exact h, fun m hm hle => absurd hm (by omega)⟩
  | succ len ih =>
    rw [lpmLookup_succ] at h
    cases hfind : Map.find t (lpmPrefix bits addr (len + 1)) with
    | some r' =>
      rw [hfind, Option.some_or] at h
      exact ⟨len + 1, le_refl _, by rw [hfind, h], fun m hm hle => absurd hm (by omega)⟩
    | none =>
      rw [hfind, Option.none_or] at h
      obtain ⟨n, hn, hroute, hlonger⟩ := ih h
      refine ⟨n, by omega, hroute, fun m hm hle => ?_⟩
      rcases Nat.eq_or_lt_of_le hle with rfl | hlt
      · exact hfind
      · exact hlonger m hm (by omega)

theorem lpmLookup_eq_none_iff {t : Tbl LpmRoute} {bits addr : Nat} (haddr : addr < 2 ^ bits) (len : Nat) :
    lpmLookup t bits addr len = none ↔ ∀ n ≤ len, Map.find t (lpmPrefix bits addr n) = none := by
  induction len with
  | zero => simp [lpmLookup, lpmPrefix_zero haddr]
  | succ len ih =>
    rw [lpmLookup_succ, Option.or_eq_none_iff, ih]
    constructor
    · rintro ⟨htop, hrest⟩ n hn
      rcases Nat.eq_or_lt_of_le hn with rfl | hlt
      · exact htop
      · exact hrest n (by omega)
    · exact fun hall => ⟨hall _ (le_refl _), fun n hn => hall n (by omega)⟩

/-- Settles O40: by induction on the length, from the longest down. -/
theorem longestPrefix : Obligations.LongestPrefix := by
  unfold Obligations.LongestPrefix
  exact fun t bits addr haddr => ⟨fun r h => lpmLookup_eq_some haddr h, lpmLookup_eq_none_iff haddr bits⟩

/-! ### HOST insertions (R130) -/

theorem State.find_setHost_self (s : State) (loc : Nat) (x : HostSlot) : Map.find (s.setHost loc x).tables.host loc = some x :=
  Map.find_ins_self ..

theorem State.find_setHost_ne (s : State) {loc j : Nat} (x : HostSlot) (h : j ≠ loc) :
    Map.find (s.setHost loc x).tables.host j = Map.find s.tables.host j := Map.find_ins_ne _ _ h

/-- An entry placed stands at its place: its tail comes after it. -/
theorem State.find_place (s : State) (loc : Nat) (head : HostSlot) (tail : BitVec 128) :
    Map.find (s.place loc head tail).tables.host loc = some head := by
  unfold State.place
  dsimp only
  split
  · rw [State.find_setHost_ne _ _ (by omega), State.find_setHost_self]
  · exact State.find_setHost_self ..

/-- A fold of the state that leaves a part of it alone at every element. -/
theorem foldNats_frame {α : Type} (g : State → α) (l : List Nat) (f : State → Nat → State) (hf : ∀ a n, g (f a n) = g a) (s : State) :
    g (foldNats l f s) = g s := by
  induction l generalizing s with
  | nil => rfl
  | cons n l ih => exact (ih (f s n)).trans (hf s n)

@[simp] theorem State.stashLevel_tables (s : State) : s.stashLevel.tables = s.tables := by
  unfold State.stashLevel
  refine foldNats_frame State.tables _ _ (fun a q => ?_) s
  (repeat' split) <;> simp

theorem State.insertHost_of_found {s : State} {k : HKey} {head : HostSlot} {tail : BitVec 128} {loc : Nat} {old : HostSlot}
    (h : hostFind s.tables.host k = some (loc, old)) : s.insertHost k head tail =
      (s.place loc { head with entry := setFld head.entry 124 123 (fld old.entry 124 123) } tail, some loc) := by
  simp only [State.insertHost, h]

/-- A new entry stands where the insertion answers, in a bucket, after a relocation, or in the stash. -/
theorem State.find_insertHost_of_new {s : State} {k : HKey} {head : HostSlot} {tail : BitVec 128} {loc : Nat}
    (hnew : hostFind s.tables.host k = none) (hloc : (s.insertHost k head tail).2 = some loc) :
    Map.find (s.insertHost k head tail).1.tables.host loc = some head := by
  unfold State.insertHost at hloc ⊢
  simp only [hnew] at hloc ⊢
  split at hloc
  · cases hloc
    exact State.find_place ..
  · split at hloc
    · cases hloc
      exact State.find_place ..
    · split at hloc
      · cases hloc
        rw [State.stashLevel_tables]
        exact State.find_place ..
      · cases hloc

/-- Settles O41: a new entry is placed, a known one is placed where it stands with its TAG. -/
theorem hostInsertion : Obligations.HostInsertion := by
  unfold Obligations.HostInsertion
  refine fun s k head tail loc hloc => ⟨fun hnew => State.find_insertHost_of_new hnew hloc, fun old hold => ?_⟩
  rw [State.insertHost_of_found hold]
  exact State.find_place ..

/-! ### Versions (R111, R113) -/

/-- Settles O46: a number below 0xFFFF does not wrap when it counts on. -/
theorem versionNumbers : Obligations.VersionNumbers := by
  unfold Obligations.VersionNumbers
  intro v hv
  unfold VerState.advance
  split
  next hlast => exact ⟨(by decide : (1 : BitVec 16) ≠ 0), fun _ => ⟨rfl, rfl⟩, fun h => absurd hlast h⟩
  next hlast =>
    refine ⟨?_, fun h => absurd h hlast, fun _ => ⟨rfl, rfl⟩⟩
    have hlt : v.nextVer.toNat ≠ 0xFFFF := fun h => hlast (BitVec.eq_of_toNat_eq h)
    show v.nextVer + 1 ≠ 0
    bv_omega

@[simp] theorem AclEntry.vis_setVis_self (x : AclEntry) (b v : Bool) : (x.setVis b v).vis b = v := by cases b <;> rfl
@[simp] theorem AclEntry.vis_setVis_other (x : AclEntry) (b v : Bool) : (x.setVis b v).vis (!b) = x.vis (!b) := by cases b <;> rfl
@[simp] theorem AclEntry.vis_free (b : Bool) : AclEntry.free.vis b = false := by cases b <;> rfl
@[simp] theorem AclEntry.setVis_fields (x : AclEntry) (b v : Bool) :
    (x.setVis b v).value = x.value ∧ (x.setVis b v).mask = x.mask ∧ (x.setVis b v).action = x.action := by
  cases b <;> exact ⟨rfl, rfl, rfl⟩

theorem AclEntry.change_of_delete {x : AclEntry} {new : Bool} {r : StagedRule} (h : r.delete = true) :
    x.change new r = if x.vis (!new) then x.setVis new false else AclEntry.free := by
  simp [AclEntry.change, h]

theorem AclEntry.change_of_write {x : AclEntry} {new : Bool} {r : StagedRule} (h : r.delete = false) : x.change new r =
    AclEntry.setVis { x with value := r.value.getD x.value, mask := r.mask.getD x.mask, action := r.action.getD x.action } new
      r.action.isSome := by
  simp [AclEntry.change, h]

/-- Visibility of a slot does not depend on an entry's contents. -/
theorem AclEntry.vis_contents (x : AclEntry) (v m : BitVec 512) (a : BitVec 16) (b : Bool) :
    AclEntry.vis { x with value := v, mask := m, action := a } b = x.vis b := rfl

/-- Settles O47: a deletion by the visibility that is left, a write by its fields. -/
theorem ruleVisibility : Obligations.RuleVisibility := by
  unfold Obligations.RuleVisibility
  intro x new r
  refine ⟨fun hdel => ?deleted, fun hdel hact => ?written⟩
  case deleted =>
    rw [AclEntry.change_of_delete hdel]
    cases hvis : x.vis (!new) <;> simp [hvis]
  case written =>
    rw [AclEntry.change_of_write hdel]
    have hsome : r.action.isSome = true := Option.isSome_iff_ne_none.2 hact
    refine ⟨by simp [hsome], by rw [AclEntry.vis_setVis_other, AclEntry.vis_contents], ?_, ?_, ?_⟩ <;>
      exact fun v hv => by simp [hv]

/-! ### The Table Access Window (R125 to R127) -/

theorem tawGo_of_hostUp {s u : State} {cmd : BitVec 64} {n : Nat} {st : Status} (hup : s.hostUp = true) (h : tawRun cmd s = (u, st)) :
    tawGo cmd n s = (List.range n).foldl (fun a _ => a.raise 0x1003 0x003 0 1 0) (State.latchLow
      { u with host := { u.host with taw := { u.host.taw with
        cmd := cmd &&& 0x70F0_FF00_FFFF_FFFF, status := BitVec.ofNat 16 (statusCode st)
        overrun := u.host.taw.overrun || decide (0 < n) } } } 0x5000 cmd) := by
  simp only [tawGo, hup, Bool.not_true, Bool.false_eq_true, if_false, h]

/-- Settles O42: the row writes the window's registers about its operation, and the operation is its first branch that holds. -/
theorem tableWindowComplete : Obligations.TableWindowComplete := by
  unfold Obligations.TableWindowComplete
  refine ⟨fun s u cmd n st finish hup hfinish => ?row, fun s cmd op copy t i hop hcopy ht hi hmode => ?operation⟩
  case row =>
    subst hfinish
    refine ⟨fun h => ?_, fun h => ?_, fun h => ?_⟩ <;> exact congrArg _ (tawGo_of_hostUp hup h)
  case operation =>
    have hrun : tawRun cmd s =
        if (op = 1 ∨ op = 2) ∧ s.confRun = false then (s, .badMode)
        else if 2 < op ∨ tawEntries t ≤ i ∨ (op = 1 ∧ tawRefuses t (tawData s (tawWidth t)) = true) then (s, .badParam)
        else if tawAbsent s op t copy i then (s, .unitAbsent)
        else if op = 0 then
          ({ s with host := { s.host with taw := { s.host.taw with data := tawWords (tawEntry s t copy i) } } }, .ok)
        else if isAcl t then tawAcl t (op == 2) (16384 * copy + i) (tawData s (tawWidth t)) s
        else (s.writeTable t copy i (if op = 2 then 0 else tawData s (tawWidth t)), .ok) := by
      subst hop hcopy ht hi
      simp only [tawRun, hmode, false_or]
    refine ⟨fun hchange hconf => by rw [hrun, if_pos ⟨hchange, hconf⟩], fun hallowed => ?_⟩
    have hmodeOk : ¬((op = 1 ∨ op = 2) ∧ s.confRun = false) := by
      rintro ⟨hchange, hconf⟩
      rcases hallowed with ⟨h1, h2⟩ | hup
      · exact hchange.elim h1 h2
      · rw [hconf] at hup
        exact Bool.false_ne_true hup
    rw [if_neg hmodeOk] at hrun
    refine ⟨fun hbad => by rw [hrun, if_pos (hbad.imp_right .inl)], fun hle hlt hok => ?_⟩
    have hparamOk : ¬(2 < op ∨ tawEntries t ≤ i ∨ (op = 1 ∧ tawRefuses t (tawData s (tawWidth t)) = true)) := by
      rintro (h | h | ⟨h1, h2⟩)
      · omega
      · omega
      · rw [hok h1] at h2
        exact Bool.false_ne_true h2
    rw [if_neg hparamOk] at hrun
    refine ⟨fun habsent => by rw [hrun, if_pos habsent], fun hthere => ?_⟩
    rw [hthere, if_neg Bool.false_ne_true] at hrun
    refine ⟨fun h0 => ?_, fun h1 hacl => ?_, fun h2 hacl => ?_, fun h0 hacl hstage => ?_⟩
    · rw [hrun, if_pos h0]
    · subst h1
      simp [hrun, hacl]
    · subst h2
      simp [hrun, hacl]
    · rw [hrun, if_neg h0, if_pos hacl, tawAcl, hstage]

end Sys2Proof.Machine
end

section
/-! PROOFS. Generations (R12, R14, R87): how they count, and that a port, a queue or a ring that is destroyed moves its own on. -/

namespace Sys2Proof.Machine

theorem nextGen_of_ne {g : BitVec 8} (h : g ≠ 0xFF) : nextGen g = g + 1 := if_neg h

theorem nextGen_ne_zero (g : BitVec 8) : nextGen g ≠ 0 := by
  unfold nextGen
  split
  · decide
  next h =>
    have hlt : g.toNat ≠ 0xFF := fun hg => h (BitVec.eq_of_toNat_eq hg)
    show g + 1 ≠ 0
    bv_omega

theorem hBad_zero (k : HKind) : hBad k 0 = true := (hBad_iff k 0).2 (.inl rfl)

/-! ### What leaves the generations alone -/

@[simp] theorem State.msix_host_queueGen (s : State) (v : BitVec 8) : (s.msix v).host.queueGen = s.host.queueGen := by
  unfold State.msix
  (repeat' split) <;> rfl

@[simp] theorem State.writeEvent_queueGen (s : State) (q : Nat) (r : EvRing) (e : Event) :
    (s.writeEvent q r e).host.queueGen = s.host.queueGen := by
  unfold State.writeEvent
  dsimp only
  split
  · exact State.msix_host_queueGen ..
  · rfl

@[simp] theorem State.postStall_queueGen (s : State) (n t : Nat) : (s.postStall n t).host.queueGen = s.host.queueGen := by
  unfold State.postStall
  (repeat' split)
  · rfl
  · exact State.writeEvent_queueGen ..
  · rfl

@[simp] theorem State.postResume_queueGen (s : State) (n t : Nat) : (s.postResume n t).host.queueGen = s.host.queueGen := by
  unfold State.postResume
  (repeat' split)
  · rfl
  · exact State.writeEvent_queueGen ..
  · rfl

@[simp] theorem State.modCq_queueGen (s : State) (n : Nat) (f : CRing → CRing) : (s.modCq n f).host.queueGen = s.host.queueGen := rfl

@[simp] theorem State.postOwed_queueGen (s : State) : s.postOwed.host.queueGen = s.host.queueGen := by
  unfold State.postOwed
  refine foldNats_frame (fun a => a.host.queueGen) _ _ (fun a n => ?_) s
  dsimp only
  (repeat' split) <;> simp

@[simp] theorem State.postWaiting_queueGen (n : Nat) (s : State) : (State.postWaiting n s).host.queueGen = s.host.queueGen := by
  induction n generalizing s with
  | zero => rfl
  | succ n ih =>
    unfold State.postWaiting
    (repeat' split)
    · exact (ih _).trans (State.writeEvent_queueGen ..)
    · rfl
    · rfl

@[simp] theorem State.postHeldEvents_queueGen (n q : Nat) (s : State) : (State.postHeldEvents n q s).host.queueGen = s.host.queueGen := by
  induction n generalizing s with
  | zero => rfl
  | succ n ih =>
    unfold State.postHeldEvents
    (repeat' split)
    · rfl
    · rfl
    · exact (ih _).trans (State.writeEvent_queueGen ..)
    · rfl

@[simp] theorem State.deliver_queueGen (s : State) (q : Nat) : (s.deliver q).host.queueGen = s.host.queueGen := by
  unfold State.deliver
  dsimp only
  split <;> simp

@[simp] theorem State.moveHeld_queueGen (s : State) (r : Option EvRing) : (s.moveHeld r).host.queueGen = s.host.queueGen := by
  unfold State.moveHeld
  split
  · exact State.deliver_queueGen ..
  · rfl

@[simp] theorem State.takeVote1_portGen (s : State) (d : Nat) (v : Vote) : (s.takeVote1 d v).portGen = s.portGen := by
  unfold State.takeVote1
  (repeat' split) <;> rfl

@[simp] theorem State.takeVote_portGen (s : State) (d : Nat) (v : Vote) : (s.takeVote d v).portGen = s.portGen := by
  unfold State.takeVote
  dsimp only
  split <;> simp

@[simp] theorem State.settle_portGen (s : State) (d : Nat) : (s.settle d).portGen = s.portGen := by
  unfold State.settle
  dsimp only
  split <;> rfl

@[simp] theorem State.dropVote_portGen (s : State) (d : Nat) (v : Vote) : (s.dropVote d v).portGen = s.portGen := by
  unfold State.dropVote
  split <;> simp

@[simp] theorem State.agents_portGen (s : State) : s.agents.portGen = s.portGen := by
  unfold State.agents
  split
  · rfl
  · refine foldNats_frame State.portGen _ _ (fun a d => ?_) s
    (repeat' split) <;> simp

/-! ### What is destroyed -/

theorem State.queueGenOf_dropQueue (s : State) (n : Nat) : (s.dropQueue n).queueGenOf n = nextGen (s.queueGenOf n) := by
  rw [State.queueGenOf, State.dropQueue, State.moveHeld_queueGen]
  exact Map.val_ins_self ..

theorem State.cqGenOf_dropCq (s : State) (n : Nat) : (s.dropCq n).cqGenOf n = nextGen (s.cqGenOf n) := Map.val_ins_self ..

theorem State.portGenOf_agents_ins (s : State) (p : Nat) (g : BitVec 8) {ps : Sys2Proof.Tbl Port} :
    (State.agents { s with ports := ps, portGen := Map.ins s.portGen p g }).portGenOf p = g := by
  rw [State.portGenOf, State.agents_portGen]
  exact Map.val_ins_self ..

theorem State.portGenOf_destroyPort {s : State} {p : Nat} {x : Port} (h : s.port p = some x) :
    (s.destroyPort p).portGenOf p = nextGen (s.portGenOf p) := by
  unfold State.destroyPort
  rw [h]
  apply State.portGenOf_agents_ins

/-- Settles O33: how `nextGen` counts, and what each destroy leaves of its own map of generations. -/
theorem generations : Obligations.Generations := by
  unfold Obligations.Generations
  exact ⟨hBad_zero, nextGen_ne_zero, rfl, fun _ h => nextGen_of_ne h, fun s p x h => State.portGenOf_destroyPort h,
    State.queueGenOf_dropQueue, State.cqGenOf_dropCq⟩

end Sys2Proof.Machine
end

section
/-! PROOFS. How a command of the command set ends, from how its own rule ends; NOP, PROT_SET, QUEUE_STATUS_GET, MODE_SET, the
fault commands and the power commands. -/

namespace Sys2Proof.Machine

/-! ### A command that acts, from its rule's answer -/

section
variable {s u t : State} {row : CmdRow} {sub : Sub} {param : BitVec 384} {ds : List Nat} {e f : Exec} {r : BitVec 384} {st : Status}
  {b : Body}

theorem acting_ok (h : Acting s row sub param ds e u f) (hd : b.doms s = ds) (hb : b.bad s = false) (ha : b.absent s = false)
    (hr : b.act u = .ok r t) :
    (Host.Outcome.next (runCommand row sub param b s) : Host.Outcome State Fault Refusal) = .next (t.done row sub f r) := by
  rw [runCommand_acting h b hd hb ha, hr, Res.settled_ok]

theorem acting_fail (h : Acting s row sub param ds e u f) (hd : b.doms s = ds) (hb : b.bad s = false) (ha : b.absent s = false)
    (hr : b.act u = .fail st t) :
    (Host.Outcome.next (runCommand row sub param b s) : Host.Outcome State Fault Refusal) = .next (t.refused sub f st) := by
  rw [runCommand_acting h b hd hb ha, hr, Res.settled_fail]

theorem acting_wait (h : Acting s row sub param ds e u f) (hd : b.doms s = ds) (hb : b.bad s = false) (ha : b.absent s = false)
    (hr : b.act u = .wait t) :
    (Host.Outcome.next (runCommand row sub param b s) : Host.Outcome State Fault Refusal) = .next (t.begun sub f) := by
  rw [runCommand_acting h b hd hb ha, hr, Res.settled_wait]

theorem ready_ok (h : s.ready row sub param e = true) (hd : b.doms s = []) (hb : b.bad s = false) (ha : b.absent s = false)
    (hr : b.act s = .ok r t) :
    (Host.Outcome.next (runCommand row sub param b s) : Host.Outcome State Fault Refusal) = .next (t.done row sub e r) := by
  rw [runCommand_ready h b hd hb ha, hr, Res.settled_ok]

theorem ready_fail (h : s.ready row sub param e = true) (hd : b.doms s = []) (hb : b.bad s = false) (ha : b.absent s = false)
    (hr : b.act s = .fail st t) :
    (Host.Outcome.next (runCommand row sub param b s) : Host.Outcome State Fault Refusal) = .next (t.refused sub e st) := by
  rw [runCommand_ready h b hd hb ha, hr, Res.settled_fail]

theorem ready_wait (h : s.ready row sub param e = true) (hd : b.doms s = []) (hb : b.bad s = false) (ha : b.absent s = false)
    (hr : b.act s = .wait t) :
    (Host.Outcome.next (runCommand row sub param b s) : Host.Outcome State Fault Refusal) = .next (t.begun sub e) := by
  rw [runCommand_ready h b hd hb ha, hr, Res.settled_wait]

end

/-! ### NOP, PROT_SET, QUEUE_STATUS_GET and MODE_SET -/

theorem queueStatus_of_cq {s : State} {q : Queue} {c : CRing} (hc : s.cq q.cq.toNat = some c) (hq : q.state ≠ .stopped) :
    queueStatus s q = pack 384 [(127, 96, (cqHandle s q.cq.toNat).toNat), (95, 64, sat 32 (stallOf s q / 1000)),
      (63, 56, c.held.length), (55, 48, q.inExec.length), (47, 40, q.lap.toNat),
      (39, 38, if q.state = .halted then 2 else if q.state = .destroying then 3 else if c.stalledAt.isSome then 1 else 0),
      (37, 36, q.domain.toNat), (15, 0, q.index.toNat)] := by
  unfold queueStatus queueStateCode
  cases hs : q.state with
  | stopped => exact absurd hs hq
  | running => simp [hc]
  | halted => simp [hc]
  | destroying => simp [hc]

theorem confRun_iff (s : State) : s.confRun = true ↔ s.mode = .configure ∨ s.mode = .run := by
  simp [State.confRun]

theorem modeSetAct_of_same {s : State} {t : Nat} (queue : QueueNo) (h : s.confRun = true) (ht : t = modeCode s.mode) :
    modeSetAct queue t s = .ok (BitVec.ofNat 384 t) s := by
  simp [modeSetAct, h, ht]

theorem modeSetAct_run {s : State} (queue : QueueNo) (hm : s.mode = .configure) :
    modeSetAct queue 3 s = if s.dev.domSet && s.time.set then .ok 3 s.toRun else .fail .badMode s := by
  have hcr := (confRun_iff s).2 (.inl hm)
  rw [modeSetAct, hcr, hm]
  rfl

theorem modeSetAct_configure {s : State} (queue : QueueNo) (hm : s.mode = .run) : modeSetAct queue 2 s = .ok 2 s.toConfigure := by
  simp [modeSetAct, confRun_iff, hm, modeCode]

theorem modeSetAct_safe {s : State} (queue : QueueNo) (h : s.confRun = true) : modeSetAct queue 4 s =
    .ok 4 ((s.raise 0x1001 0x007 0 1 queue.toNat).enterSafe (safeRequest s queue)) := by
  have hne : ¬ 4 = modeCode s.mode := by rcases (confRun_iff s).1 h with hm | hm <;> simp [hm, modeCode]
  simp [modeSetAct, h, hne]

/-- Settles O9: each command's own rule, case by case, under the law of a command that is ready. -/
theorem adminCommandsComplete : Obligations.AdminCommandsComplete := by
  unfold Obligations.AdminCommandsComplete
  refine ⟨?nop, ?prot, ?queue, ?mode⟩
  case nop => exact fun s sub e h => ready_ok h rfl rfl rfl rfl
  case prot => exact fun s sub e value domain h hd hv => ready_ok h rfl (by simpa [hv] using hd) rfl rfl
  case queue =>
    intro s sub e queue q c h hq hc hst
    refine ready_ok h rfl rfl rfl ?_
    simp [hq, hst, queueStatus_of_cq hc hst]
  case mode =>
    intro s sub e target hm h
    have hcr := (confRun_iff s).2 hm
    refine ⟨fun ht => ?_, ?_, ?_, ?_, ?_⟩
    · refine ready_ok h rfl ?_ rfl (modeSetAct_of_same _ hcr ht)
      rcases hm with hm | hm <;> simp [ht, hm, modeCode, inRange]
    · rintro rfl hm hd ht
      exact ready_ok h rfl rfl rfl ((modeSetAct_run _ hm).trans (by simp [hd, ht]))
    · rintro rfl hm hd
      exact ready_fail h rfl rfl rfl ((modeSetAct_run _ hm).trans (by rcases hd with hd | hd <;> simp [hd]))
    · rintro rfl hm
      exact ready_ok h rfl rfl rfl (modeSetAct_configure _ hm)
    · rintro rfl
      exact ready_ok h rfl rfl rfl (modeSetAct_safe _ hcr)

/-! ### The fault commands -/

/-- Settles O16: the rule of each command as it stands, with `faultAckAct` split on whether the fault is unacknowledged. -/
theorem faultCommandsComplete : Obligations.FaultCommandsComplete := by
  unfold Obligations.FaultCommandsComplete
  refine ⟨fun s sub e m h hm => ⟨fun hin => ?_, fun hout => ?_⟩, fun s sub e buf len h ha hl => ?_,
    fun s sub e kind window thresh h hk hw => ?_, fun s sub e m h hb => ready_ok h rfl hb rfl rfl⟩
  · exact ready_ok h rfl (by simp; omega) rfl (by simp [faultAckAct, hin])
  · exact ready_fail h rfl (by simp; omega) rfl (by simp [faultAckAct, hout])
  · exact ready_ok h rfl (by simpa [ha] using hl) rfl rfl
  · exact ready_ok h rfl (by simpa [hk] using hw) rfl rfl

/-! ### The power commands -/

/-- Settles O20: a take is a new vote, done at once or waiting, and a withdrawal takes the host's vote off. -/
theorem powerCommandsComplete : Obligations.PowerCommandsComplete := by
  unfold Obligations.PowerCommandsComplete
  refine ⟨?take, ?withdraw, fun s sub e h hr => ready_ok hr rfl rfl rfl rfl⟩
  case take =>
    rintro s u sub e h d hr rfl hd hv rfl
    refine ⟨fun hon => ready_ok hr rfl (by simpa using hd) rfl ?_, fun hoff => ready_wait hr rfl (by simpa using hd) rfl ?_⟩
    · simpa [pwrVoteAct, hv] using hon
    · simpa [pwrVoteAct, hv] using hoff
  case withdraw =>
    rintro s sub e h d hr rfl hd
    refine ⟨fun v hv => ready_ok hr rfl (by simpa using hd) rfl ?_, fun hv => ready_fail hr rfl (by simpa using hd) rfl ?_⟩
    · simp [pwrVoteAct, hv]
    · simp [pwrVoteAct, hv]

end Sys2Proof.Machine
end

section
/-! PROOFS. The commands and rows of queues and rings, and of the Strainers: what each row's function answers, branch by branch. -/

namespace Sys2Proof.Machine

/-- A row of the block goes on in the state that its function answers. -/
theorem next_eq {s t : State} (h : s = t) : (Host.Outcome.next s : Host.Outcome State Fault Refusal) = .next t := congrArg _ h

theorem State.hostUp_mode {s : State} (h : s.hostUp = true) : s.mode ≠ .reset ∧ s.mode ≠ .lockout ∧ s.dev.pcieUp = true := by
  simpa [State.hostUp, and_assoc] using h

/-! ### Creating and destroying queues and rings -/

theorem queueDestroyAct_gone {s : State} {n : Nat} {h : Handle} {q : Queue} (hq : s.queue n = some q) (he : q.inExec = [])
    (ho : owesCompletions s n q = false) (hn : namedByOthers s h = false) (hf : heldFits s q = true) :
    queueDestroyAct n h s = .ok 0 (s.dropQueue n) := by
  simp [queueDestroyAct, hq, he, ho, hn, hf]

theorem queueDestroyAct_waits {s : State} {n : Nat} {h : Handle} {q : Queue} (hq : s.queue n = some q)
    (hw : q.inExec ≠ [] ∨ owesCompletions s n q = true ∨ namedByOthers s h = true ∨ heldFits s q = false) :
    queueDestroyAct n h s = .wait (s.modQueue n (fun q => { q with
      state := .destroying, fetched := [], windowed := false, failedRead := .none })) := by
  have hc : (!q.inExec.isEmpty || owesCompletions s n q || namedByOthers s h || !heldFits s q) = true := by
    simpa [or_assoc] using hw
  simp only [queueDestroyAct, hq, hc, if_true]

theorem cqDestroyAct_inUse {s : State} {n : Nat} (h : Handle) (hu : n = 0 ∨ s.host.queues.any (fun x => x.2.cq.toNat == n) = true) :
    cqDestroyAct n h s = .fail .inUse s :=
  if_pos (by simpa using hu)

theorem cqDestroyAct_gone {s : State} {n : Nat} {h : Handle} (h0 : n ≠ 0) (hu : s.host.queues.any (fun x => x.2.cq.toNat == n) = false)
    (hn : namedByOthers s h = false) : cqDestroyAct n h s = .ok 0 { s with
      ctr := (s.clearSlots (0x100 + n) 16 17).ctr
      host := { s.host with
        cqs := Map.del s.host.cqs n, cqGen := Map.ins s.host.cqGen n (nextGen (s.cqGenOf n))
        pageUser := s.host.pageUser.filter (· ≠ 0x100 + n) } } := by
  simp only [cqDestroyAct, beq_eq_false_iff_ne.2 h0, hu, hn, Bool.or_self, Bool.false_eq_true, if_false]
  rfl

theorem exec_cqDestroy (sub : Sub) (cq : Handle) (s : State) : exec (.cqDestroy sub cq) s =
    .next (runCommand Cat.cqDestroy sub (pack 384 [(31, 0, cq.toNat)])
      { act := cqDestroyAct (fld cq 19 0 - 65536) cq, again := orBadMode (cqDestroyAct (fld cq 19 0 - 65536) cq) } s) := rfl

/-- Settles O10: QUEUE_CREATE and CQ_CREATE take the lowest free number, and the destroys go as their rules answer. -/
theorem ringCommandsComplete : Obligations.RingCommandsComplete := by
  unfold Obligations.RingCommandsComplete
  refine ⟨?qcreate, ?qdestroy, ?ccreate, ?cdestroy⟩
  case qcreate =>
    intro s sub e sq eq cq poll dom sqExp eqExp vec irq n h hsq hpoll hexp heq
    have hbad : (badBase sq || badPoll poll.toNat || badExp sqExp.toNat || (eqExp != 0 && (badExp eqExp.toNat || badBase eq))) =
        false := by
      rcases heq with heq | ⟨hx, hb⟩
      · simp [hsq, hpoll, hexp, heq]
      · simp [hsq, hpoll, hexp, hx, hb]
    refine ⟨fun hn => ?_, fun hn hc => ?_, fun hn hc => ?_⟩
    · exact ready_fail h rfl hbad rfl (by simp [queueCreateBody, hn])
    · exact ready_fail h rfl hbad rfl (by simp [queueCreateBody, hn, hc])
    · exact ready_ok h rfl hbad rfl (by simp only [queueCreateBody, hn, beq_eq_false_iff_ne.2 hc, Bool.false_eq_true, if_false]; rfl)
  case qdestroy =>
    intro s sub e queue q h h0 hq
    have hbad : (fld queue 19 0 == 0) = false := beq_eq_false_iff_ne.2 h0
    exact ⟨fun he ho hn hf => ready_ok h rfl hbad rfl (queueDestroyAct_gone hq he ho hn hf),
      fun hw => ready_wait h rfl hbad rfl (queueDestroyAct_waits hq hw)⟩
  case ccreate =>
    intro s sub e base poll exp vec irq coal n h hb hp hx hn
    refine ready_ok h rfl (by simp [cqCreateBody, hb, hp, hx]) rfl ?_
    simp only [cqCreateBody, hn]
    rfl
  case cdestroy =>
    intro s sub e cq n h hn
    rw [exec_cqDestroy, ← hn]
    exact ⟨fun hu => ready_fail h rfl rfl rfl (cqDestroyAct_inUse cq hu),
      fun h0 hu ho => ready_ok h rfl rfl rfl (cqDestroyAct_gone h0 hu ho)⟩

/-! ### Ring reads -/

theorem pollQueue_of_window {s : State} {n : Nat} {q : Queue} (hf : s.fetching n = some q) (hr : q.failedRead = .none)
    (hl : q.fetched.length < 8) (read : Option (List Entry)) : pollQueue n read s =
      match read with
      | none => (if q.windowed then s else s.countQueue n 3 1).modQueue n (fun q => { q with failedRead := .window })
      | some es => (if q.windowed then s else s.countQueue n 3 1).takeRead n q es := by
  have hl' : ¬ 8 ≤ q.fetched.length := Nat.not_le.2 hl
  cases read <;> simp [pollQueue, hf, hr, hl']

theorem retrySubmission_failed {s : State} {n : Nat} {q : Queue} (hf : s.fetching n = some q) (hr : q.failedRead ≠ .none) :
    retrySubmission n none s = (s.haltQueue n).raiseDma (s.queueGenOf n) n := by
  cases h : q.failedRead with
  | none => exact absurd h hr
  | window => simp [retrySubmission, hf, h]
  | lap => simp [retrySubmission, hf, h]

/-- A second failure of a completion ring's read, to which no running queue is bound, stops the ring alone. -/
theorem retryCompletion_failed {s : State} {n : Nat} {r : CRing} (hc : s.cq n = some r) (hup : s.hostUp = true)
    (hr : r.reads = .retry) (hq : ∀ x ∈ s.host.queues, x.2.cq.toNat = n → x.2.state ≠ .running) :
    retryCompletion n none s = (s.modCq n (fun r => { r with reads := .stopped })).raiseDma (s.cqGenOf n) (65536 + n) := by
  have hnone : s.host.queues.filter (fun e => decide (e.2.cq.toNat = n) && e.2.state == .running) = [] := by
    simpa [List.filter_eq_nil_iff] using hq
  simp [retryCompletion, hc, hup, hr, hnone, foldNats]

theorem State.eventRing_of_hostUp {s : State} {n : Nat} {q : Queue} {r : EvRing} (hup : s.hostUp = true) (hq : s.queue n = some q)
    (hr : q.events = some r) : s.eventRing n = some r := by
  simp [State.eventRing, hq, hr, (State.hostUp_mode hup).2.1]

theorem retryEvent_found {s : State} {n : Nat} {r : EvRing} (he : s.eventRing n = some r) (hup : s.hostUp = true)
    (hr : r.reads = .retry) (f : EvRing → State → State) : retryEvent n (some f) s = f r s := by
  simp [retryEvent, he, hup, hr]

theorem retryEvent_failed {s : State} {n : Nat} {q : Queue} {r : EvRing} (he : s.eventRing n = some r) (hup : s.hostUp = true)
    (hr : r.reads = .retry) (hq : s.queue n = some q) (hs : q.state = .running) : retryEvent n none s =
      ((s.eventReads n r .stopped).haltQueue n).raiseDma (s.queueGenOf n) n := by
  simp [retryEvent, he, hup, hr, hq, hs]

theorem retryNotices_of_retry {s : State} {q : Nat} (hen : (s.strainer q).en = true) (hup : s.hostUp = true)
    (hr : (s.strainer q).reads = .retry) (returned : Option Nat) : retryNotices q returned s =
      match returned with
      | some n => s.takeNotices q n
      | none => ((s.modStrainer q (fun r => { r with reads := .stopped })).drawn).raiseDma 1 (s.free 20).toNat := by
  simp only [retryNotices, hen, hup, hr, beq_self_eq_true, Bool.and_self, if_true] <;> rfl

theorem rereadLap_of_wrongLap {s : State} {n : Nat} {q : Queue} (hf : s.fetching n = some q) (hr : q.failedRead = .none)
    (hl : q.wrongLap = true) (read : Option Entry) : rereadLap n read s =
      match read with
      | none => s.modQueue n (fun q => { q with failedRead := .lap })
      | some e => s.takeReread n q e := by
  cases read <;> simp [rereadLap, hf, hr, hl]

theorem State.takeReread_wrong (s : State) (n : Nat) {q : Queue} {e : Entry} (ho : entryO e = true) (hl : entryLap e ≠ q.lap) :
    s.takeReread n q e = s.malformed n q.index := by
  simp [State.takeReread, ho, hl]

theorem State.takeReread_right (s : State) (n : Nat) {q : Queue} {e : Entry} (h : entryO e = false ∨ entryLap e = q.lap) :
    s.takeReread n q e =
      (s.modQueue n (fun q => { q with fetched := e :: q.fetched.drop 1, failedRead := .none })).takeWindow n := by
  rcases h with h | h <;> simp [State.takeReread, h]

/-- Settles O11: the poll, the retry of each kind of read, and the re-read of a wrong LAP. -/
theorem queueReadsComplete : Obligations.QueueReadsComplete := by
  unfold Obligations.QueueReadsComplete
  refine ⟨?poll, ?retry, ?completion, ?event, ?notice, ?lap⟩
  case poll =>
    intro s qn q es hf hr hl
    have hpoll := pollQueue_of_window hf hr hl
    refine ⟨fun hw => ⟨next_eq ?_, next_eq ?_⟩, fun hw => ⟨next_eq ?_, next_eq ?_⟩⟩
    all_goals
      rw [hpoll]
      simp [hw]
  case retry =>
    refine fun s qn q e es hf => ⟨fun hr => next_eq ?_, fun hr => next_eq ?_, fun hr => next_eq (retrySubmission_failed hf hr)⟩
    · simp [retryRead, retrySubmission, hf, hr]
    · simp [retryRead, retrySubmission, hf, hr]
  case completion =>
    refine fun s n r k hc hup hr => ⟨next_eq ?_, fun hq => next_eq (retryCompletion_failed hc hup hr hq)⟩
    simp [retryRead, retryCompletion, hc, hup, hr]
  case event =>
    intro s n q r k hq hr hup hrd
    have he := State.eventRing_of_hostUp hup hq hr
    exact ⟨next_eq (retryEvent_found he hup hrd (fun r s => s.takeEventRoom n.toNat r k)),
      fun hs => next_eq (retryEvent_failed he hup hrd hq hs)⟩
  case notice =>
    exact fun s q k hen hup hr =>
      ⟨next_eq (retryNotices_of_retry hen hup hr (some k)), next_eq (retryNotices_of_retry hen hup hr none)⟩
  case lap =>
    intro s qn q e hf hr hl
    have hlap := rereadLap_of_wrongLap hf hr hl
    exact ⟨fun ho hne => next_eq ((hlap _).trans (State.takeReread_wrong s _ ho hne)),
      fun h => next_eq ((hlap _).trans (State.takeReread_right s _ h)), next_eq (hlap _)⟩

/-! ### COMMAND_START, interrupt holdoffs and ADMIN_CTL -/

section
variable {s : State} {n : Nat} {q : Queue} {e : Entry} {rest : List Entry}

theorem startNext_malformed (hf : s.fetching n = some q) (he : q.fetched = e :: rest) (hl : q.wrongLap = false)
    (hw : wellFormedRow e = none) : startNext n s = s.malformed n q.index := by
  simp [startNext, hf, he, hl, hw]

theorem startNext_stalls {row : CmdRow} (hf : s.fetching n = some q) (he : q.fetched = e :: rest) (hl : q.wrongLap = false)
    (hw : wellFormedRow e = some row) (hm : mayStart s n q row (bitAt e 496) = true) (hp : placeLeft s q.cq.toNat = false) :
    startNext n s = s.stallRing q.cq.toNat := by
  simp [startNext, hf, he, hl, hw, hm, hp]

theorem startNext_starts {row : CmdRow} (hf : s.fetching n = some q) (he : q.fetched = e :: rest) (hl : q.wrongLap = false)
    (hw : wellFormedRow e = some row) (hm : mayStart s n q row (bitAt e 496) = true) (hp : placeLeft s q.cq.toNat = true) :
    startNext n s = ((s.modQueue n (fun x => { x with
        fetched := rest, index := (advance q.sqExp q.index q.lap).1, lap := (advance q.sqExp q.index q.lap).2 })).start
      n q row q.index (BitVec.ofNat 32 (fld e 63 32)) (BitVec.ofNat 384 (fld e 447 64))).takeWindow n := by
  simp only [startNext, hf, he, hl, hw, hm, hp, Bool.not_true, Bool.false_eq_true, if_false]

end

theorem Irq.expired_of_owed {now : Nat} {i : Irq} (ho : i.owed = true) (ht : i.untilNs ≤ now) :
    Irq.expired now i = ({ i with untilNs := now + i.holdNs, owed := false }, true) := by
  simp [Irq.expired, ho, ht]

theorem writeAdminCtl_of_hostUp {s : State} (hup : s.hostUp = true) (v : BitVec 64) :
    writeAdminCtl v s = applyAdminCtl v (s.latchLow 0x7018 v) := if_pos hup

theorem applyAdminCtl_enable {s : State} {v : BitVec 64} (hr : s.host.adminRunning = false) (hv : bitAt v 63 = true) :
    applyAdminCtl v s = if badAdmin s v then s.regReject 0x1001 0x7018 else s.adminStart v := by
  simp [applyAdminCtl, hr, hv]

theorem applyAdminCtl_disable {s : State} {v : BitVec 64} (hr : s.host.adminRunning = true) (hv : bitAt v 63 = false) :
    applyAdminCtl v s = State.adminSettle (State.modQueue { s with host := { s.host with
      adminCtl := setFld s.host.adminCtl 63 63 0 } } 0
      (fun q => { q with state := .stopped, fetched := [], windowed := false, failedRead := .none })) := by
  simp [applyAdminCtl, hr, hv]

/-- Settles O13: the start of the next entry, a holdoff's end for each kind of ring, and the two writes of ADMIN_CTL. -/
theorem queueControlCompletes : Obligations.QueueControlCompletes := by
  unfold Obligations.QueueControlCompletes
  refine ⟨?start, ⟨?completion, ?event, ?notice⟩, ?enable, ?disable⟩
  case start =>
    exact fun s qn q e rest hf he hl => ⟨fun hw => next_eq (startNext_malformed hf he hl hw), fun row hw hm =>
      ⟨fun hp => next_eq (startNext_starts hf he hl hw hm hp), fun hp => next_eq (startNext_stalls hf he hl hw hm hp)⟩⟩
  case completion =>
    intro s n r hc ho ht
    refine next_eq ?_
    simp [endHoldoff, hc, Irq.expired_of_owed ho ht]
  case event =>
    intro s n r he ho ht
    refine next_eq ?_
    simp [endHoldoff, he, Irq.expired_of_owed ho ht]
  case notice =>
    intro s q ho ht
    refine next_eq ?_
    simp [endHoldoff, Irq.expired_of_owed ho ht]
  case enable =>
    intro s v hup hr
    have h : writeAdminCtl (setFld v 63 63 1) s =
        if badAdmin s (setFld v 63 63 1) then (s.latchLow 0x7018 (setFld v 63 63 1)).regReject 0x1001 0x7018
        else (s.latchLow 0x7018 (setFld v 63 63 1)).adminStart (setFld v 63 63 1) :=
      (writeAdminCtl_of_hostUp hup _).trans (applyAdminCtl_enable hr (bitAt_setFld_one v))
    exact ⟨fun hb => next_eq (h.trans (by rw [hb]; rfl)), fun hb => next_eq (h.trans (by rw [hb]; rfl))⟩
  case disable =>
    exact fun s v hup hr _ => next_eq
      ((writeAdminCtl_of_hostUp hup _).trans (applyAdminCtl_disable hr (bitAt_setFld_zero v)))

/-! ### Completion writes and the polls of rings -/

theorem writeNext_writes {s : State} {n : Nat} {r : CRing} {c : Comp} {rest : List Comp} (hc : s.cq n = some r)
    (hr : r.finished = c :: rest) (hup : s.hostUp = true) (hh : r.held = []) (hroom : 0 < r.room) :
    writeNext n s = (s.writeComp n { r with finished := rest } c).adminSettle := by
  simp [writeNext, hc, hr, hup, hh, hroom]

theorem writeNext_holds {s : State} {n : Nat} {r : CRing} {c : Comp} {rest : List Comp} (hc : s.cq n = some r)
    (hr : r.finished = c :: rest) (hup : s.hostUp = true) (h : r.held ≠ [] ∨ r.room = 0) :
    writeNext n s = s.modCq n (fun r => { r with finished := rest, held := r.held ++ [c] }) := by
  rcases h with h | h <;> simp [writeNext, hc, hr, hup, h]

/-- Settles O14: the oldest completion is written or held, and a poll's room lets go what waits. -/
theorem ringWritesComplete : Obligations.RingWritesComplete := by
  unfold Obligations.RingWritesComplete
  refine ⟨fun s n r c rest hc hr hup => ⟨fun hh hroom => next_eq (writeNext_writes hc hr hup hh hroom),
    fun h => next_eq (writeNext_holds hc hr hup h)⟩, fun s n r room hc hup hr => ⟨next_eq ?_, next_eq ?_⟩,
    fun s n r room he hup hr => ⟨next_eq ?_, next_eq ?_⟩, fun s r returned he hup hr => ⟨s.takeRecords returned, next_eq ?_, rfl, rfl, rfl⟩⟩
  · simp [pollCq, State.takeCqRoom, hc, hup, hr]
  · simp [pollCq, hc, hup, hr]
  · simp [pollEvents, State.takeEventRoom, he, hup, hr]
  · simp [pollEvents, State.eventReads, he, hup, hr]
  · simp only [pollFaultRecords, he, hup, hr]
    rfl

/-! ### The Strainers -/

theorem writeStrCfg_enable {s : State} {q : Nat} {v : BitVec 64} (hup : s.hostUp = true) (hq : quadThere s q = true)
    (hm : s.confRun = true) (hen : (s.strainer q).en = false) (hv : bitAt v 63 = true) (hb : badStrCfg (s.strainer q) v = false) :
    writeStrCfg q v s = (s.latchLow (0x8010 + 0x100 * q) v).modStrainer q (fun r => Strainer.startItem { r with
      cfg := setFld v 13 0 0, areaOff := 0, areaUsed := [], room := 2 ^ fld v 57 53, reads := .live, index := 0, lap := 1
      arrival := 0, dropped := 0
      irq := { vector := BitVec.ofNat 8 (fld v 52 45), enabled := bitAt v 44, holdNs := 1000, untilNs := 0, owed := false } }) := by
  simp [writeStrCfg, hup, hq, hm, hen, hv, hb]

theorem writeStrCfg_running {s : State} {q : Nat} (hup : s.hostUp = true) (hq : quadThere s q = true)
    (hen : (s.strainer q).en = true) (v : BitVec 64) : writeStrCfg q v s =
      if bitAt v 63 then s.regReject (0x1010 + q) (0x8010 + 0x100 * q)
      else s.modStrainer q (fun r => { r with cfg := setFld r.cfg 63 63 0 }) := by
  cases hv : bitAt v 63 <;> simp [writeStrCfg, hup, hq, hen, hv]

theorem swapBanks_of_drained {s : State} {q : Nat} (hen : (s.strainer q).en = true) (hup : s.hostUp = true)
    (hd : (s.strainer q).drain = []) (hp : (s.strainer q).inProgress = none) (hf : (s.strainer q).fill ≠ []) :
    swapBanks q s = s.modStrainer q (fun r => Strainer.startItem { r with drain := r.fill, fill := [], fillBank := !r.fillBank }) := by
  simp [swapBanks, hen, hup, hd, hp, hf]

theorem noticesReturned_of_live {s : State} {q : Nat} (hen : (s.strainer q).en = true) (hup : s.hostUp = true)
    (hr : (s.strainer q).reads = .live) (returned : Option Nat) : noticesReturned q returned s =
      match returned with
      | none => s.modStrainer q (fun r => { r with reads := .retry })
      | some n => s.takeNotices q n := by
  simp only [noticesReturned, hen, hup, hr, beq_self_eq_true, Bool.and_self, if_true] <;> rfl

theorem State.takeNotices_of_le {s : State} {q n : Nat} (h : n ≤ (s.strainer q).areaUsed.length) : s.takeNotices q n =
    s.modStrainer q (fun r => Strainer.startItem { r with areaUsed := r.areaUsed.drop n, room := r.room + n, reads := .live }) := by
  rw [State.takeNotices, Nat.min_eq_left h]

/-- Settles O15: each Strainer row's function under the condition that lets it happen. -/
theorem strainersComplete : Obligations.StrainersComplete := by
  unfold Obligations.StrainersComplete
  refine ⟨?enable, ?disable, ?flush, ?swap, ?written, ?poll⟩
  case enable =>
    exact fun s q v hup hq hm hen hb => next_eq (writeStrCfg_enable hup hq hm hen (bitAt_setFld_one v) hb)
  case disable =>
    intro s q v hup hq hen
    have h := writeStrCfg_running hup hq hen
    exact ⟨next_eq ((h _).trans (by rw [bitAt_setFld_zero]; rfl)), next_eq ((h _).trans (by rw [bitAt_setFld_one]; rfl))⟩
  case flush =>
    intro s q hup hq
    refine next_eq ?_
    rw [writeFlush, hup, hq]
    rfl
  case swap => exact fun s q hen hup hd hp hf => next_eq (swapBanks_of_drained hen hup hd hp hf)
  case written =>
    rintro s q i r rfl hp hup hirq
    refine next_eq ?_
    have hw : Irq.written s.tbNs (s.strainer q.toNat).irq = ((s.strainer q.toNat).irq, false) := by simp [Irq.written, hirq]
    simp only [itemWritten, hp, hup, hw, Bool.not_true, Bool.false_eq_true, if_false]
  case poll =>
    intro s q n hen hup hr hn
    have h := noticesReturned_of_live hen hup hr
    exact ⟨next_eq ((h _).trans (State.takeNotices_of_le hn)), next_eq (h _)⟩

end Sys2Proof.Machine
end

section
/-! PROOFS. Power domains, supplies and resets: what a vote changes, what each reset leaves, and the rows of pins and links. -/

namespace Sys2Proof.Machine

/-! ### A vote changes the power controller's own state alone -/

theorem State.takeVote1_eq (s : State) (d : Nat) (v : Vote) : s.takeVote1 d v = { s with power := (s.takeVote1 d v).power } := by
  unfold State.takeVote1
  (repeat' split) <;> rfl

theorem State.takeVote_eq (s : State) (d : Nat) (v : Vote) : s.takeVote d v = { s with power := (s.takeVote d v).power } := by
  unfold State.takeVote
  dsimp only
  split
  · exact (State.takeVote1_eq (s.takeVote1 d v) _ _).trans (by rw [State.takeVote1_eq s d v])
  · exact State.takeVote1_eq s d v

theorem State.settle_eq (s : State) (d : Nat) : s.settle d = { s with power := (s.settle d).power } := by
  unfold State.settle
  dsimp only
  split <;> rfl

theorem State.dropVote_eq (s : State) (d : Nat) (v : Vote) : s.dropVote d v = { s with power := (s.dropVote d v).power } := by
  unfold State.dropVote
  split
  · exact State.settle_eq _ d
  · rfl

@[simp] theorem State.takeVote_dev (s : State) (d : Nat) (v : Vote) : (s.takeVote d v).dev = s.dev := by
  rw [State.takeVote_eq]
@[simp] theorem State.dropVote_dev (s : State) (d : Nat) (v : Vote) : (s.dropVote d v).dev = s.dev := by
  rw [State.dropVote_eq]

@[simp] theorem State.agents_dev (s : State) : s.agents.dev = s.dev := by
  unfold State.agents
  split
  · rfl
  · refine foldNats_frame State.dev _ _ (fun a d => ?_) s
    (repeat' split) <;> simp

/-! ### Domains and supplies -/

theorem State.domLive_iff (s : State) : s.domLive = true ↔ s.mode ≠ .reset ∧ s.mode ≠ .lockout := by
  simp [State.domLive, and_comm]

theorem holdoffExpiry_of_due {s : State} {d : Nat} (hlive : s.domLive = true) (hsafe : s.mode ≠ .safe)
    (hst : (s.dom d).state = .holdoff) (ht : (s.dom d).holdoffEnd ≤ s.tbNs) : holdoffExpiry d s =
      let t := (s.powerOff d).modDom d (fun m => { m with state := .dropping, cause := none })
      if inRange d 40 43 then t else (t.modDom d (fun m => { m with canary := s.free 32 })).drawn := by
  simp [holdoffExpiry, hlive, hsafe, hst, ht]

@[simp] theorem State.powerOff_draws (s : State) (d : Nat) : (s.powerOff d).draws = s.draws := by
  unfold State.powerOff
  (repeat' split) <;> rfl

theorem dropDone_of_no_votes {s : State} {d : Nat} (hlive : s.domLive = true) (hst : (s.dom d).state = .dropping)
    (hv : (s.dom d).votes = []) : dropDone d s =
      if 44 ≤ d && d < 48 then (s.modDom d (fun m => { m with state := .off })).dropVote (d - 4) parentVote
      else s.modDom d (fun m => { m with state := .off }) := by
  simp [dropDone, hlive, hst, hv]

theorem dropDone_of_cause {s : State} {d : Nat} {v : Vote} {t : Nat} (hlive : s.domLive = true) (hst : (s.dom d).state = .dropping)
    (hv : (s.dom d).votes ≠ []) (hc : (s.dom d).cause = some (v, t)) : dropDone d s = s.startWake d v t := by
  cases h : (s.dom d).votes with
  | nil => exact absurd h hv
  | cons w ws => simp [dropDone, hlive, hst, h, hc]

/-- Settles O21: each row under its condition; an index that no domain has stops the block before anything else. -/
theorem powerRowsComplete : Obligations.PowerRowsComplete := by
  unfold Obligations.PowerRowsComplete
  refine ⟨⟨?holdoff, ?drop, ?infuser, ?wake, ?dipStart, ?dipEnd, ?cause⟩, ?none⟩
  case holdoff =>
    intro s d hd hm hst ht
    have hlive : s.domLive = true := (State.domLive_iff s).2 (by rcases hm with hm | hm | hm <;> simp [hm])
    have hsafe : s.mode ≠ .safe := by rcases hm with hm | hm | hm <;> simp [hm]
    have hex : exec (.domainHoldoffExpiry d) s = .next (holdoffExpiry d.toNat s) := if_neg (Nat.not_le.2 hd)
    have hgo := holdoffExpiry_of_due hlive hsafe hst ht
    refine ⟨fun h => ⟨_, hex, ?_⟩, fun h => hex.trans (next_eq ?_)⟩
    · rw [hgo]
      simp [h, State.drawn, State.modDom, State.dom]
    · rw [hgo]
      simp [h]
  case drop =>
    intro s d hd h1 h2 hst hv
    refine (if_neg (by omega)).trans (next_eq ?_)
    rw [dropDone_of_no_votes ((State.domLive_iff s).2 ⟨h1, h2⟩) hst hv, if_neg (by simp; omega)]
  case infuser =>
    intro s d hlo hd h1 h2 hst hv
    refine (if_neg (by omega)).trans (next_eq ?_)
    rw [dropDone_of_no_votes ((State.domLive_iff s).2 ⟨h1, h2⟩) hst hv, if_pos (by simp; omega)]
  case wake =>
    exact fun s d v t hd h1 h2 hst hv hc =>
      (if_neg (Nat.not_le.2 hd)).trans (next_eq (dropDone_of_cause ((State.domLive_iff s).2 ⟨h1, h2⟩) hst hv hc))
  case dipStart => exact fun s r hm => next_eq (if_neg hm)
  case dipEnd =>
    intro s r pm ns hm hdip
    refine next_eq ?_
    rw [dipEnd, if_neg (by simp [hm, hdip])]
    rfl
  case cause =>
    intro s hup
    refine next_eq ?_
    rw [readResetCause, if_pos hup]
    rfl
  case none => exact fun s d failed hd => ⟨if_pos hd, if_pos hd, if_pos hd⟩

/-! ### Power-on and supply reset -/

/-- Settles O22: both are `State.powerReset`, whose fields the statement lists. -/
theorem powerResetsComplete : Obligations.PowerResetsComplete := by
  unfold Obligations.PowerResetsComplete
  refine ⟨fun s => ⟨s.powerReset 1 false 0, ?_⟩, fun s rail => ⟨supplyReset rail s, rfl, ?_⟩⟩
  · exact ⟨rfl, rfl, rfl, rfl, rfl, rfl, rfl, rfl, rfl, rfl, rfl, rfl, rfl, rfl, rfl, rfl, rfl, rfl, rfl, rfl⟩
  · by_cases h : rail = 0
    · rw [supplyReset, if_pos h]
      exact ⟨rfl, rfl, fun _ => ⟨rfl, rfl⟩, fun hr => absurd h hr, rfl, rfl, rfl, rfl, rfl, rfl, rfl, rfl, rfl, rfl, rfl⟩
    · rw [supplyReset, if_neg h]
      exact ⟨rfl, rfl, fun hr => absurd hr h, fun _ => ⟨rfl, rfl, rfl⟩, rfl, rfl, rfl, rfl, rfl, rfl, rfl, rfl, rfl, rfl, rfl⟩

/-! ### The reset sources -/

theorem restrictedIr_iff (ir : BitVec 8) : restrictedIr ir = true ↔ 3 ≤ ir ∧ ir ≤ 7 := by
  simp [restrictedIr, inRange, BitVec.le_def]

theorem State.enterBoot_dev (s : State) (step : BitVec 4) :
    (s.enterBoot step).dev = { s.dev with prevMode := s.dev.mode, mode := .boot, bootStep := step } := by
  unfold State.enterBoot
  rw [State.agents_dev, foldNats_frame State.dev _ _ (fun a d => State.takeVote_dev a d bootVote)]
  rfl

/-- Settles O24: each source's function under its condition; what enters BOOT is read off `State.enterBoot_dev`. -/
theorem resetSourcesComplete : Obligations.ResetSourcesComplete := by
  unfold Obligations.ResetSourcesComplete
  refine ⟨?low, ?hold, ?rise, ?perst, ?perstBoot, ?perstHigh, ?rstCtl, ?exit⟩
  case low =>
    intro s h
    refine next_eq ?_
    simp [resetLow, h]
  case hold =>
    intro s hm hstep
    refine ⟨resetRise s, rfl, ?_, fun hir => ?_⟩
    · have : s.dev.mode = .boot := hm
      simp [resetRise, mayLeaveReset, State.mode, this, hstep]
    · have : s.dev.mode = .boot := hm
      simp [resetRise, mayLeaveReset, State.mode, this, hstep, (restrictedIr_iff _).2 hir]
  case rise =>
    intro s hm hr hc
    have hm' : s.dev.mode = .reset := hm
    refine ⟨_, next_eq (if_pos (by simp [mayLeaveReset, State.mode, hm', hr, hc])), ?_⟩
    rw [State.enterBoot_dev]
    exact ⟨rfl, rfl⟩
  case perst =>
    intro s hp hm
    refine next_eq ?_
    rcases hm with hm | hm | hm <;> simp [perstLow, hp, hm]
  case perstBoot =>
    intro s hp hm
    refine next_eq ?_
    simp [perstLow, hp, hm]
  case perstHigh =>
    intro s hm
    refine next_eq ?_
    rcases hm with hm | hm | hm | ⟨hm, hstep⟩
    · simp [perstHigh, hm]
    · simp [perstHigh, hm]
    · simp [perstHigh, hm]
    · have hlate : ¬ s.dev.bootStep.toNat < 2 := Nat.not_lt.2 hstep
      simp only [perstHigh, hm, decide_eq_false hlate, Bool.and_false, Bool.not_false, Bool.and_true]
      simp
  case rstCtl =>
    refine fun s v hup => ⟨fun hk hb => next_eq ?_, fun h => next_eq ?_⟩
    · simp [writeRstCtl, hup, hk, hb]
    · have hno : ¬ (fld v 31 16 = 0xB007 ∧ bitAt v 0 = true) := by
        rcases h with h | h <;> simp [h]
      simp only [writeRstCtl, hup, hno, Bool.not_true, Bool.false_eq_true, if_false]
      rfl
  case exit =>
    intro s hm hr hc
    have hm' : s.dev.mode = .reset := hm
    refine ⟨leaveReset s, rfl, ?_⟩
    simp only [leaveReset, mayLeaveReset, State.mode, hm', hr, hc, beq_self_eq_true, Bool.and_self, if_true]
    rw [State.enterBoot_dev]
    exact ⟨rfl, rfl, rfl⟩

end Sys2Proof.Machine
end

section
/-! PROOFS. The reset of the host interface, wakes, pins and die-to-die links; self-test, bundles, flash and BOOT. -/

namespace Sys2Proof.Machine

theorem foldl_frame {α β : Type} (g : State → α) (l : List β) (f : State → β → State) (hf : ∀ a b, g (f a b) = g a) (s : State) :
    g (l.foldl f s) = g s := by
  induction l generalizing s with
  | nil => rfl
  | cons b bs ih => exact (ih (f s b)).trans (hf s b)

theorem Map.find_map {V W : Type} (t : Sys2Proof.Tbl V) (f : V → W) (k : Nat) :
    Map.find (t.map (fun e => (e.1, f e.2))) k = (Map.find t k).map f := by
  induction t with
  | nil => rfl
  | cons e t ih =>
    simp only [List.map_cons, Map.find, ih]
    (repeat' split) <;> rfl

/-! ### HOST_IF_RESET -/

@[simp] theorem State.flushBanks_host (s : State) (q : Nat) : (s.flushBanks q).host = s.host := by simp [State.flushBanks]

theorem State.stopStrainers_host (s : State) : s.stopStrainers.host = s.host :=
  foldNats_frame State.host _ _ (fun a q => by simp) s

theorem State.disown_host (s : State) (queue : QueueNo) (index : BitVec 16) : (s.disown queue index).host = s.host := rfl

theorem State.orphanAll_host (s : State) : ∃ l, s.orphanAll.host = { s.host with orphans := l } :=
  ⟨_, foldl_frame State.host _ _ (fun a (o : Orphan) => State.disown_host a o.queue o.exec.index) _⟩

theorem State.dropRings_host (s : State) : s.dropRings.host = { s.host with
    queues := (s.host.queues.filter (fun e => e.1 = 0)).map (fun e => (e.1, e.2.idle))
    cqs := (s.host.cqs.filter (fun e => e.1 = 0)).map (fun e => (e.1, e.2.idle))
    queueGen := bumpGens s.host.queues s.host.queueGen (· == 0), cqGen := bumpGens s.host.cqs s.host.cqGen (· == 0)
    adminRunning := false, adminCtl := setFld s.host.adminCtl 63 63 0 } := rfl

theorem State.resetHostIf_host (s : State) (cause : Nat) : (s.resetHostIf cause).host =
    { s.orphanAll.dropRings.stopStrainers.host with pageUser := [], msixTable := [], msixMask := 0, msixPend := 0 } := rfl

/-- A chain without the buffers that the host posted. -/
def Chain.unposted (x : Chain) : Chain := { x with posted := [], buf := none }

theorem State.resetHostIf_chains (s : State) (cause : Nat) : (s.resetHostIf cause).audit.chains =
    s.orphanAll.dropRings.stopStrainers.audit.chains.map (fun c => (c.1, c.2.unposted)) := rfl

theorem Queue.idle_state (q : Queue) : q.idle.state = .halted ↔ q.state = .halted := by
  cases h : q.state <;> simp [Queue.idle, h]

theorem State.find_chain_resetHostIf {s : State} {cause n : Nat} {x : Chain}
    (h : Map.find (s.resetHostIf cause).audit.chains n = some x) : x.posted = [] ∧ x.buf = none := by
  rw [State.resetHostIf_chains, Map.find_map] at h
  obtain ⟨y, -, rfl⟩ := Option.map_eq_some_iff.1 h
  exact ⟨rfl, rfl⟩

/-! ### Wakes, pins and links -/

theorem wakeDone_of_live {s : State} {d : Nat} (hlive : s.domLive = true) (hd : d < 44) (ht : domThere s d = true)
    (hw : (s.dom d).state = .waking) (banks : List ScrubbedBank) : wakeDone d banks s =
      let l := failedBanks s d banks
      let s1 := l.foldl (fun a b => a.loseBanks d b) s
      if s.mode == .boot then (s1.reportOn d 0 0).afterWake d
      else (((failedBlocks l).foldl (fun a e => a.raiseRetention d e) s1).reportOn d (failedBlocks l).length
        (contentMask (failedBlocks l))).afterWake d := by
  have hnot : inRange d 44 47 = false := by simp [inRange]; omega
  simp only [wakeDone, hlive, ht, hw, hnot]
  rfl

theorem tapTakes_listed {resetN : Bool} {ir : BitVec 8} (h : (ir = 0x01 ∨ ir = 0x02) ∨ (3 ≤ ir ∧ ir ≤ 7 ∧ resetN = false)) :
    tapTakes resetN ir = ir := by
  unfold tapTakes
  rcases h with h | ⟨h1, h2, h3⟩
  · rw [if_pos h]
  · split
    · rfl
    · rw [if_pos ⟨(restrictedIr_iff ir).2 ⟨h1, h2⟩, h3⟩]

theorem tapTakes_bypass {resetN : Bool} {ir : BitVec 8} (h : ir = 0 ∨ 7 < ir ∨ (3 ≤ ir ∧ resetN = true)) :
    tapTakes resetN ir = 0xFF := by
  have hnot : ¬ (ir = 0x01 ∨ ir = 0x02) := by
    rintro (rfl | rfl) <;> revert h <;> simp
  have hno : ¬ (restrictedIr ir = true ∧ resetN = false) := by
    rintro ⟨hr, rfl⟩
    obtain ⟨h1, h2⟩ := (restrictedIr_iff ir).1 hr
    rcases h with rfl | h | ⟨-, h⟩
    · revert h1; decide
    · exact absurd h2 (BitVec.not_le.2 h)
    · cases h
  rw [tapTakes, if_neg hnot, if_neg hno]

/-- Settles O25: the host interface's state is read off `State.resetHostIf`; the other rows are their functions' branches. -/
theorem resetsAndPinsComplete : Obligations.ResetsAndPinsComplete := by
  unfold Obligations.ResetsAndPinsComplete
  refine ⟨?host, ?wake, ?wakeBoot, fun s _ => rfl, ?tap, ?hub, ?refclk, ?d2d⟩
  case host =>
    intro s c hr hl
    obtain ⟨cause, hcause⟩ : ∃ cause, hostReset c s = s.resetHostIf cause := ⟨_, if_neg (by simp [hr, hl])⟩
    refine ⟨_, next_eq hcause, (State.resetHostIf_keeps s cause (.refl s)).mode, ?_⟩
    obtain ⟨l, hl⟩ := State.orphanAll_host s
    rw [State.resetHostIf_host, State.stopStrainers_host, State.dropRings_host, hl]
    exact ⟨rfl, rfl, fun q => ⟨rfl, rfl, Queue.idle_state q⟩, rfl, rfl, bitAt_setFld_zero _, rfl, fun _ _ => State.find_chain_resetHostIf⟩
  case wake =>
    rintro s d banks l t hd hm hthere hw rfl rfl
    have hlive : s.domLive = true := (State.domLive_iff s).2 (by rcases hm with hm | hm | hm <;> simp [hm])
    have hboot : (s.mode == .boot) = false := by rcases hm with hm | hm | hm <;> simp [hm]
    refine (if_neg (by omega)).trans (next_eq ?_)
    rw [wakeDone_of_live hlive hd hthere hw]
    simp only [hboot, Bool.false_eq_true, if_false]
    rfl
  case wakeBoot =>
    intro s d hd hm hthere hw
    have hlive : s.domLive = true := (State.domLive_iff s).2 (by simp [hm])
    refine (if_neg (by omega)).trans (next_eq ?_)
    rw [wakeDone_of_live hlive hd hthere hw]
    simp only [hm, beq_self_eq_true, if_true]
    rfl
  case tap => exact fun s ir => ⟨_, rfl, rfl, tapTakes_listed, tapTakes_bypass⟩
  case hub =>
    exact fun s => next_eq rfl
  case refclk =>
    intro s g hg hr hl
    have h8 : ¬ 8 < g.toNat := by omega
    have hne : ¬ g.toNat = 8 := by omega
    have hr' : s.dev.mode ≠ .reset := hr
    have hl' : s.dev.mode ≠ .lockout := hl
    refine ⟨next_eq ?_, next_eq ?_⟩
    · simp [refclkLost, h8, hne, State.mode, hr', hl']
    · simp [refclkBack, mayLeaveReset, h8, hne, State.mode, hr', hl']
  case d2d =>
    intro s link lane hr ht
    refine ⟨next_eq ?_, next_eq ?_, next_eq ?_⟩ <;> simp [d2dError, hr, ht]

/-! ### A command that waits, when its row comes again -/

theorem runCommand_again {s : State} {row : CmdRow} {sub : Sub} {param : BitVec 384} {e : Exec} (hr : s.mode ≠ .reset)
    (hl : s.mode ≠ .lockout) (he : s.findExec sub.queue.toNat sub.index = some e) (ho : e.opcode.toNat = row.opcode)
    (hp : e.param = param) (hb : e.begun = true) (b : Body) :
    runCommand row sub param b s = (b.again s).settled sub.queue.toNat row e := by
  unfold runCommand
  rw [if_neg (by simp [hr, hl])]
  simp only [he, ho, hp, and_self, if_true, State.actOn, hb]

/-! ### BOOT -/

theorem State.loadStores_mode (s : State) (b : List Byte) : (s.loadStores b).dev.mode = s.dev.mode :=
  (State.loadStores_keeps s b (.refl s)).mode

theorem State.endBoot_mode (s : State) : s.endBoot.dev.mode = .configure := (State.endBoot_keeps s (.refl s)).mode

theorem loadEnd_loaded {s : State} (h : darkChiplet s = none) : loadEnd s .loaded = .loaded := by simp [loadEnd, h]

theorem State.loadBundle_loaded {s : State} (h : darkChiplet s = none) (b : List Byte) (pcie : Bool) :
    ∃ u : State, s.loadBundle b pcie .loaded = u.endBoot := by
  unfold State.loadBundle
  rw [loadEnd_loaded h]
  exact ⟨_, rfl⟩

/-- A load whose read-back fails, or one of whose chiplets does, ends with its fault and its error code, and stays in the mode. -/
theorem State.loadBundle_readbackFailed (s : State) (b : List Byte) (pcie : Bool) (i : BitVec 8) :
    ∃ u : State, u.dev.mode = s.dev.mode ∧ s.loadBundle b pcie (.readbackFailed i) = u.bootFail 0x1001 2 i.toNat := by
  have h : loadEnd s (.readbackFailed i) = .readbackFailed i := by simp [loadEnd]
  unfold State.loadBundle
  rw [h]
  refine ⟨_, ?_, rfl⟩
  exact State.loadStores_mode _ b

theorem State.loadBundle_chipletFailed (s : State) (b : List Byte) (pcie : Bool) (c : BitVec 8) :
    ∃ u : State, u.dev.mode = s.dev.mode ∧ s.loadBundle b pcie (.chipletFailed c) = u.bootFail 0x1001 3 c.toNat := by
  have h : loadEnd s (.chipletFailed c) = .chipletFailed c := by simp [loadEnd]
  unfold State.loadBundle
  rw [h]
  refine ⟨_, ?_, rfl⟩
  exact State.loadStores_mode _ b

/-- Settles O26: each command's own rule, and the branches of `startBoot` and `State.loadBundle`. -/
theorem firmwareComplete : Obligations.FirmwareComplete := by
  unfold Obligations.FirmwareComplete
  refine ⟨⟨?selfTest, ?load, ?info, ?flash, ?flashEnd⟩, ?start, ?loaded, ?configure, ?failed⟩
  case selfTest =>
    rintro s sub e buf len found r h ha hl rfl
    exact ready_ok h rfl (by simpa [ha] using hl) rfl rfl
  case load =>
    intro s sub e buf len b r h ha
    refine ⟨fun hw => ?_, fun hw hb => ?_, fun hw => ?_, fun hw hb => ?_⟩
    · exact ready_fail h rfl ha rfl (by simp [loadAct, hw])
    · exact ready_fail h rfl ha rfl (by simp [loadAct, hw, hb])
    · exact ready_fail h rfl ha rfl (by simp [loadAct, hw])
    · exact ready_ok h rfl ha rfl (by simp [loadAct, hw, hb])
  case info => exact fun s sub e h => ready_ok h rfl rfl rfl rfl
  case flash =>
    intro s sub e buf len b h ha
    refine ⟨fun hf => ?_, fun hf => ?_, fun hf hb => ?_, fun hf hb hp => ?_, fun hf hb hp => ?_⟩
    · exact ready_fail h rfl ha rfl (if_pos (by simpa [Option.isSome_iff_ne_none] using hf))
    · exact ready_fail h rfl ha rfl (by simp [updateFlash, hf])
    · exact ready_fail h rfl ha rfl (by simp [updateFlash, hf, hb])
    · exact ready_wait h rfl ha rfl (by simp [updateFlash, hf, hb, updateSlot, hp])
    · exact ready_wait h rfl ha rfl (by simp [updateFlash, hf, hb, updateSlot, hp])
  case flashEnd =>
    intro s sub e buf len b slot data hr hl he ho hp hb hf
    refine next_eq ((runCommand_again hr hl he ho hp hb _).trans ?_)
    simp only [endUpdate, hf, Res.settled_ok]
  case start =>
    intro s src test found hm hstep
    have hgo : (s.mode != .boot || !(s.dev.bootStep == 1 || s.dev.bootStep == 2)) = false := by
      rcases hstep with hstep | hstep <;> simp [hm, hstep]
    refine ⟨_, rfl, next_eq ?_, next_eq ?_⟩ <;> simp only [startBoot, hgo] <;> rfl
  case loaded =>
    intro s slot r hm hl
    refine next_eq ?_
    simp only [bundleLoaded, hm, hl]
    rfl
  case configure =>
    intro s b pcie hm hdark
    obtain ⟨u, hu⟩ := State.loadBundle_loaded hdark b pcie
    rw [hu]
    exact State.endBoot_mode u
  case failed =>
    intro s b pcie seg hm
    obtain ⟨u, hu, heq⟩ := State.loadBundle_readbackFailed s b pcie seg
    obtain ⟨v, hv, hveq⟩ := State.loadBundle_chipletFailed s b pcie seg
    rw [heq, hveq]
    exact ⟨hu.trans hm, rfl, hv.trans hm, rfl⟩

end Sys2Proof.Machine
end

section
/-! PROOFS. The registers and the rows of the time base: which writes wait, what a tick counts, and each row at its instant. -/

namespace Sys2Proof.Machine

/-! ### Writes and reads of the time base -/

section
variable {s : State} {v : BitVec 64}

theorem writeAdj_of_hostUp (hup : s.hostUp = true) : writeAdj v s =
    if v.toInt.natAbs ≤ 0x3B9ACA000000 then (s.latchLow 0x6008 v).queueWrite (.adj v) else (s.latchLow 0x6008 v).timeReject 0x6008 := by
  simp [writeAdj, State.timeWritable, hup]

theorem writeTimeCtl_of_hostUp (hup : s.hostUp = true) : writeTimeCtl v s =
    if badTimeCtl v then (s.latchLow 0x6038 v).timeReject 0x6038 else (s.latchLow 0x6038 v).queueWrite (.ctl v) := by
  simp [writeTimeCtl, State.timeWritable, hup]

theorem writeSet_of_hostUp {u : State} {sec ns : BitVec 64} (hup : s.hostUp = true)
    (hu : u = ((s.latchLow 0x6010 sec).latch 0x6014 (BitVec.ofNat 32 (fld sec 63 32))).latchLow 0x6018 ns) : writeSet sec ns s =
      if fld ns 63 32 ≤ 999999999 then u.queueWrite (.setTime sec ns) else u.timeReject 0x6018 := by
  simp [writeSet, State.timeWritable, hup, hu]

theorem latchNow_of_hostUp (hup : s.hostUp = true) : latchNow s =
    (s.timeSettled.modTime (fun t => { t with nowLatch := s.timeSettled.now, tbLatch := BitVec.ofNat 64 s.timeSettled.tbNs })).emit
      (.read 0x6020 s.timeSettled.now) := if_pos hup

theorem State.timeSettled_of_no_writes (h : s.time.writes = []) : s.timeSettled = s := by simp [State.timeSettled, h]

theorem State.timeSettled_of_writes (h : s.time.writes ≠ []) : s.timeSettled = ticks 1 s := if_neg (by simpa using h)

end

/-- Settles O27: a write by its range, a read by what waits before it, and the calibration of a port's stamp path. -/
theorem timeRegistersComplete : Obligations.TimeRegistersComplete := by
  unfold Obligations.TimeRegistersComplete
  refine ⟨⟨?writes, ?set, ?reads⟩, ?calibrate, ?get⟩
  case writes =>
    intro s v hup
    refine ⟨?_, ?_, fun h => next_eq ?_, fun h => next_eq ?_, fun h => next_eq ?_, fun h => next_eq ?_⟩
    · exact (timeIncrement.1 s v hup).1
    · exact (timeIncrement.1 s v hup).2
    · rw [writeAdj_of_hostUp hup, if_pos h]
    · rw [writeAdj_of_hostUp hup, if_neg (Nat.not_le.2 h)]
      rfl
    · rw [writeTimeCtl_of_hostUp hup, h]
      rfl
    · rw [writeTimeCtl_of_hostUp hup, h]
      rfl
  case set =>
    refine fun s u sec ns hup hu => ⟨fun h => next_eq ?_, fun h => next_eq ?_⟩
    · rw [writeSet_of_hostUp hup hu, if_pos h]
    · rw [writeSet_of_hostUp hup hu, if_neg (Nat.not_le.2 h)]
      rfl
  case reads =>
    refine fun s u hup => ⟨fun hw => next_eq ?_, fun hw ht => next_eq ?_, next_eq (if_pos hup), next_eq (if_pos hup)⟩
    · rw [latchNow_of_hostUp hup, State.timeSettled_of_no_writes hw]
      rfl
    · have hu : ticks 1 s = u := by
        rw [exec_timeTick_of_no_slips] at ht
        exact Host.Outcome.next.inj ht
      rw [latchNow_of_hostUp hup, State.timeSettled_of_writes hw, hu]
      rfl
  case calibrate => exact fun s p rx tx bound h => next_eq (if_pos h)
  case get =>
    intro s sub e h x hr hx
    refine ⟨fun hup => ready_ok hr rfl rfl rfl ?_, fun hup => ready_fail hr rfl rfl rfl ?_⟩
    · simp [tsCal, hx, hup, reportedBound, boundLimit]
    · simp [tsCal, hx, hup]

/-! ### Ticks -/

/-- Of three numbers in rising order, the last is greater than the first where either step rises. -/
theorem decide_lt_or_lt {a b c : Nat} (hab : a ≤ b) (hbc : b ≤ c) : (decide (a < b) || decide (b < c)) = true ↔ a < c := by
  simp only [Bool.or_eq_true, decide_eq_true_eq]
  omega

/-- With no write waiting the ticks only count, and a second is crossed as the first and the last instant lie apart. -/
theorem ticks_of_no_writes {s : State} (n : Nat) (hw : s.time.writes = []) : ∃ x, ticks n s = { s with time := { s.time with
      dev := s.time.dev + n * s.time.inc.toNat, tb := s.time.tb + n * s.time.inc.toNat, crossed := x, ticks := s.time.ticks + n } } ∧
    (0 < n → (x = true ↔ s.time.dev / secUnit < (s.time.dev + n * s.time.inc.toNat) / secUnit)) := by
  cases n with
  | zero => exact ⟨s.time.crossed, by simp [ticks], fun h => absurd h (Nat.lt_irrefl 0)⟩
  | succ n =>
    have hsum (k : Nat) : k + 1 * s.time.inc.toNat + n * s.time.inc.toNat = k + (n + 1) * s.time.inc.toNat := by
      rw [Nat.add_assoc, ← Nat.add_mul, Nat.add_comm 1 n]
    refine ⟨decide (s.time.dev / secUnit < (s.time.dev + 1 * s.time.inc.toNat) / secUnit) ||
      decide ((s.time.dev + 1 * s.time.inc.toNat) / secUnit < (s.time.dev + (n + 1) * s.time.inc.toNat) / secUnit), ?_, fun _ => ?_⟩
    · unfold ticks
      rw [if_neg (Nat.succ_ne_zero n), hw]
      simp only [List.foldl_nil, State.modTime, TimeState.count, Nat.add_sub_cancel, hsum, hw]
    · exact decide_lt_or_lt (Nat.div_le_div_right (Nat.le_add_right ..))
        (Nat.div_le_div_right (by rw [← hsum]; exact Nat.le_add_right ..))

theorem State.applyWrite_adj_below_zero {s : State} {v : BitVec 64} (h : (s.time.dev : Int) + v.toInt * 65536 < 0) :
    s.applyWrite (.adj v) = s.timeReject 0x6008 := if_pos h

/-- A TIME_ADJ that would lead below zero is rejected at its tick. -/
theorem ticks_one_of_adj {s : State} {v : BitVec 64} (hw : s.time.writes = [.adj v])
    (h : (s.time.dev + s.time.inc.toNat : Int) + v.toInt * 65536 < 0) :
    (ticks 1 s).time.dev = s.time.dev + s.time.inc.toNat ∧ (ticks 1 s).faults.transit.length = s.faults.transit.length + 1 := by
  obtain ⟨x, ht⟩ := ticks_succ 0 s
  rw [hw, List.foldl_cons, List.foldl_nil, State.applyWrite_adj_below_zero
    (by simpa [State.modTime, TimeState.count] using h)] at ht
  rw [ht]
  simp [State.timeReject, State.modTime, TimeState.count]

/-! ### References, PPS and checkpoints -/

theorem refLocks_of_unlocked {s : State} (hs : s.time.refSel ≠ 0) (hl : s.time.refLock = false) : refLocks s =
    (s.modTime (fun t => { t with refLock := true, everLocked := t.everLocked || t.set })).requality :=
  if_neg (by simp [hs, hl])

theorem ppsEdge_first {s : State} {q : BitVec 3} (hm : s.mode ≠ .reset) (ha : s.time.ppsAccept = none)
    (hq : s.time.quality = .invalid) : ppsEdge q s = s.modTime (fun t => { t with
      ppsAccept := some s.tbNs
      pps := { stamp := timeOf (roundQuarter (s.time.dev + q.toNat * 1073741824))
               offset := BitVec.ofInt 64 (ppsOffset (roundQuarter (s.time.dev + q.toNat * 1073741824))), count := t.pps.count } }) := by
  simp [ppsEdge, hm, ha, hq]

theorem ppsEdge_too_soon {s : State} {t : Nat} (q : BitVec 3) (hm : s.mode ≠ .reset) (ha : s.time.ppsAccept = some t)
    (ht : s.tbNs < t + 500000000) : ppsEdge q s = s.bump 0 0 1 := by
  simp [ppsEdge, hm, ha, ht]

theorem timeCp_of_due {s : State} (ht : 1024 ≤ s.time.ticks) (hlive : s.domLive = true) (slips : List SliceSlip) :
    timeCp slips s = foldNats (slicesThere s) (fun a sl => a.takeCheckpoint sl)
      ((s.skewed slips).modTime (fun t => { t with ticks := t.ticks % 1024 })) :=
  if_neg (by simp [hlive, Nat.not_lt.2 ht])

/-- Settles O28: a tick's counts, and each row of the time base at its instant. -/
theorem timeRowsComplete : Obligations.TimeRowsComplete := by
  unfold Obligations.TimeRowsComplete
  refine ⟨⟨?count, ?inc, ?adj, ?slip⟩, ?lock, ?loss, ?hold, ?seen, ?rise, ?fall, ?edge, ?soon, ?checkpoint, ?copy⟩
  case count =>
    intro s n hw
    obtain ⟨x, ht, hx⟩ := ticks_of_no_writes n hw
    exact ⟨x, next_eq ht, hx⟩
  case inc =>
    intro s v hw
    obtain ⟨x, ht⟩ := ticks_succ_of_inc 1 hw
    refine ⟨_, next_eq ht, ?_, ?_, rfl, rfl⟩ <;> simp
  case adj => exact fun s v hw h => ⟨_, exec_timeTick_of_no_slips 1 s, ticks_one_of_adj hw h⟩
  case slip =>
    intro s x hw
    obtain ⟨y, ht, -⟩ := ticks_of_no_writes 1 hw
    refine ⟨(ticks 1 s).skewed [x], rfl, ?_, ?_⟩ <;> rw [ht]
    · exact congrArg (s.time.dev + ·) (Nat.one_mul _)
    · rfl
  case lock => exact fun s hs hl => next_eq (refLocks_of_unlocked hs hl)
  case loss => exact fun s hl => next_eq (if_pos hl)
  case hold =>
    refine fun s hq hv ht => next_eq (if_pos ?_)
    simp only [hq, hv, beq_self_eq_true, Bool.and_self, Bool.true_and, decide_eq_true_eq]
    exact ht
  case seen => exact fun s t hs hc ht => next_eq (if_pos (by simp [hs, hc, State.reached, ht]))
  case rise =>
    exact fun s hm hc hq hx => next_eq (if_pos (by simp [(confRun_iff s).2 hm, hc, hq, hx]))
  case fall =>
    refine fun s ho ht => next_eq (if_pos ?_)
    rw [ho, Bool.true_and, decide_eq_true_eq]
    exact ht
  case edge => exact fun s q hm ha hq => next_eq (ppsEdge_first hm ha hq)
  case soon => exact fun s q t hm ha ht => next_eq (ppsEdge_too_soon q hm ha ht)
  case checkpoint =>
    rintro s u slips ht hl hr rfl
    exact next_eq (timeCp_of_due ht ((State.domLive_iff s).2 ⟨hr, hl⟩) slips)
  case copy =>
    refine fun s sl hon hok => ⟨fun h => ?_, fun h => ?_⟩
    · simp [State.takeCheckpoint, hon, hok, h]
    · simp [State.takeCheckpoint, hon, hok, Option.isSome_iff_ne_none, h]

end Sys2Proof.Machine
end

section
/-! PROOFS. The commands of ports and lanes, PORT_CFG, lane tests and eye scans: each command's own rule, branch by branch. -/

namespace Sys2Proof.Machine

/-! ### Ports -/

theorem portCreateAct_eq (slice : Handle) (first typ : Nat) (s : State) : portCreateAct slice first typ s =
    if lanesHeld s (64 * fld slice 19 0 + first) (laneCount typ) then .fail .noRoom s
    else .ok (portHandle s (64 * fld slice 19 0 + first)).toNat (s.createPort (64 * fld slice 19 0 + first) typ) := rfl

theorem portDestroyAct_of_port {s : State} {h : Handle} {x : Port} (hx : s.port (hPort h) = some x) : portDestroyAct h s =
    if x.enabled then .fail .busy s else if namedByOthers s h then .wait s else .ok 0 (s.destroyPort (hPort h)) := by
  rw [portDestroyAct, hx]

theorem portStatusAct_of_port {s : State} {p : Nat} {x : Port} (hx : s.port p = some x) :
    portStatusAct p s = .ok (portStatus s p x) s := by
  rw [portStatusAct, hx]

theorem attrSetAct_of_room {s : State} {p : Nat} {a : BitVec 32}
    (h : bitAt a 31 = false ∨ s.ports.countP (fun y => y.1 != p && y.2.priv) < 64) :
    attrSetAct p a s = .ok 0 (s.modPort p (fun x => { x with attr := a })) := by
  rcases h with h | h
  · simp [attrSetAct, h]
  · simp [attrSetAct, Nat.not_le.2 h]

@[simp] theorem bitAt_setFld_low_one (v : BitVec 64) : bitAt (setFld v 0 0 1) 0 = true := by
  have := v.isLt
  unfold bitAt setFld
  simp only [BitVec.toNat_ofNat, Nat.testBit_eq_decide_div_mod_eq, Nat.shiftRight_eq_div_pow]
  simp
  omega

@[simp] theorem bitAt_setFld_low_zero (v : BitVec 64) : bitAt (setFld v 0 0 0) 0 = false := by
  have := v.isLt
  unfold bitAt setFld
  simp only [BitVec.toNat_ofNat, Nat.testBit_eq_decide_div_mod_eq, Nat.shiftRight_eq_div_pow]
  simp
  omega

/-- A write of PORT_CFG that reaches its port. -/
theorem writePortCfg_of_port {s : State} {p : Nat} {x : Port} (hup : s.hostUp = true) (hsl : sliceThere s (p / 64) = true)
    (hx : s.port p = some x) (hw : s.sliceWritable (p / 64) = true) (v : BitVec 64) : writePortCfg p v s =
      if badPortCfg x v then (s.latchLow (portBase p) v).regReject (macSource p) (portBase p)
      else
        let s1 := (s.latchLow (portBase p) v).modPort p (fun y => { y with cfg := setFld (v &&& 0x3FFFFFFFFFFFCE01) 7 4 x.type })
        if bitAt v 0 && !x.enabled then s1.enablePort p
        else if !bitAt v 0 && x.enabled then s1.disablePort p
        else s1 := by
  simp only [writePortCfg, hup, hsl, hx, hw, Bool.not_true, Bool.or_self, Bool.false_eq_true, if_false]

/-- Settles O30: each command's rule on the port it names, and PORT_CFG by the bit ENABLE before and after. -/
theorem portCommandsComplete : Obligations.PortCommandsComplete := by
  unfold Obligations.PortCommandsComplete
  refine ⟨⟨?create, ?destroy, ?status, ?attr, fun s u sub e f h ha => acting_ok ha rfl rfl rfl rfl⟩, ?cfg⟩
  case create =>
    intro s u sub e f slice first typ h hn hf
    refine ⟨fun hl => acting_fail h rfl (by simp [hn, hf]) rfl ?_, fun hl => acting_ok h rfl (by simp [hn, hf]) rfl ?_⟩
    · exact (portCreateAct_eq ..).trans (if_pos hl)
    · exact (portCreateAct_eq ..).trans (if_neg (by simp [hl]))
  case destroy =>
    intro s u sub e f h x ha hx
    have hact := portDestroyAct_of_port hx
    refine ⟨fun he => acting_fail ha rfl rfl rfl (hact.trans ?_), fun he hn => acting_wait ha rfl rfl rfl (hact.trans ?_),
      fun he hn => acting_ok ha rfl rfl rfl (hact.trans ?_)⟩
    · rw [if_pos he]
    · rw [he, hn]
      rfl
    · rw [he, hn]
      rfl
  case status => exact fun s u sub e f h x ha hx => acting_ok ha rfl rfl rfl (portStatusAct_of_port hx)
  case attr => exact fun s u sub e f h a ha hb hn => acting_ok ha rfl hb rfl (attrSetAct_of_room hn)
  case cfg =>
    intro s u p x v hup hsl hx hw
    have hcfg := writePortCfg_of_port hup hsl hx hw
    refine ⟨fun hb => next_eq ((hcfg _).trans (if_pos hb)), fun hb he hu => next_eq ((hcfg _).trans ?_),
      fun hb he hu => next_eq ((hcfg _).trans ?_)⟩
    · simp only [hb, he, hu, bitAt_setFld_low_one, Bool.not_false, Bool.and_self, Bool.false_eq_true, if_false, if_true]
    · simp only [hb, he, hu, bitAt_setFld_low_zero, Bool.not_true, Bool.not_false, Bool.and_self,
        Bool.false_eq_true, if_false, if_true]

/-! ### Lanes -/

/-- LANE_CFG_SET leaves the taps alone with TX_CTL = 0, and retrains where the inversion or TX_CTL changes. -/
theorem laneCfgAct_eq (h : Handle) (i : BitVec 3) (rx tx ctl : Bool) (pre main post : BitVec 8) (timeout : BitVec 16) (s : State) :
    laneCfgAct h i rx tx ctl pre main post timeout s =
      let t := s.modLane (laneNamed h i) (fun y => { y with
        rxInv := rx, txInv := tx, txCtl := ctl, timeout := timeout
        cPre := if ctl then pre else y.cPre, cMain := if ctl then main else y.cMain, cPost := if ctl then post else y.cPost })
      .ok 0 (if (s.lane (laneNamed h i)).rxInv = rx ∧ (s.lane (laneNamed h i)).txInv = tx ∧ (s.lane (laneNamed h i)).txCtl = ctl
        then t else t.retrain (hPort h)) := by
  have hmod (y : Lane) : (let z := { y with rxInv := rx, txInv := tx, txCtl := ctl, timeout := timeout }
      if ctl then { z with cPre := pre, cMain := main, cPost := post } else z) = { y with
        rxInv := rx, txInv := tx, txCtl := ctl, timeout := timeout
        cPre := if ctl then pre else y.cPre, cMain := if ctl then main else y.cMain, cPost := if ctl then post else y.cPost } := by
    cases ctl <;> rfl
  simp only [laneCfgAct, hmod]
  by_cases hc : (s.lane (laneNamed h i)).rxInv = rx ∧ (s.lane (laneNamed h i)).txInv = tx ∧ (s.lane (laneNamed h i)).txCtl = ctl
  · obtain ⟨h1, h2, h3⟩ := hc
    simp [h1, h2, h3]
  · have hb : ((s.lane (laneNamed h i)).rxInv != rx || (s.lane (laneNamed h i)).txInv != tx ||
        (s.lane (laneNamed h i)).txCtl != ctl) = true := by
      simp only [Bool.or_eq_true, bne_iff_ne]
      tauto
    rw [if_pos hb, if_neg hc]

theorem adaptAct_restart (h : Handle) (i : BitVec 3) (s : State) : adaptAct h i 2 s = .ok 0 (s.retrain (hPort h)) := rfl

theorem adaptAct_of_live {s : State} {h : Handle} {i : BitVec 3} {action : BitVec 2} (ha : action ≠ 2)
    (hl : (s.lane (laneNamed h i)).state = .align ∨ (s.lane (laneNamed h i)).state = .up) : adaptAct h i action s =
      .ok 0 ((s.sampleLane (laneNamed h i)).modLane (laneNamed h i) (fun x => { x with
        adapt := if action = 0 then .frozen else .track, recoverNs := none })) := by
  unfold adaptAct
  rw [if_neg ha]
  rcases hl with hl | hl <;> simp [hl]

theorem adaptAct_of_not_live {s : State} {h : Handle} {i : BitVec 3} {action : BitVec 2} (ha : action ≠ 2)
    (h1 : (s.lane (laneNamed h i)).state ≠ .align) (h2 : (s.lane (laneNamed h i)).state ≠ .up) :
    adaptAct h i action s = .fail .linkDown s := by
  unfold adaptAct
  rw [if_neg ha]
  simp [h1, h2]

theorem retireClear_of_not_retired {s : State} {h : Handle} {i : BitVec 3} (hr : (s.lane (laneNamed h i)).state ≠ .retired) :
    retireClear h i s = s.modLane (laneNamed h i) (fun x => { x with retired := false }) :=
  if_neg (by simpa using hr)

theorem serCfg_of_port {s : State} {p : Nat} {x : Port} (hx : s.port p = some x) (window : BitVec 14) (thresh : BitVec 24) :
    serCfg p window thresh s = foldNats (lanesOf p x) (fun a l =>
        if (a.lane l).state == .up then (a.sampleLane l).modLane l (Lane.endWindow 0 s.tbNs) else a)
      (s.modPort p (fun y => { y with serWindow := window.setWidth 16, serThresh := thresh })) := by
  simp only [serCfg, hx]

/-- Settles O31: the rule of each lane command, in the state with its vote. -/
theorem laneCommandsComplete : Obligations.LaneCommandsComplete := by
  unfold Obligations.LaneCommandsComplete
  refine ⟨?status, ?set, ?others, ?ser⟩
  case status => exact fun s u sub e f buf h i ha hm hb => acting_ok ha rfl (by simp [hm, hb]) rfl rfl
  case set =>
    rintro s u t sub e f h i rx tx ctl pre main post timeout ha hb rfl
    exact acting_ok ha rfl hb rfl (laneCfgAct_eq ..)
  case others =>
    refine fun s u sub e f h i => ⟨fun ha hb => acting_ok ha rfl hb rfl rfl,
      fun ha hb hr => acting_ok ha rfl hb rfl (congrArg (Res.ok 0) (retireClear_of_not_retired hr)), fun action h3 hb ha => ?_⟩
    have hbad : (badLaneIdx s h i || action == 3) = false := by
      rw [hb, Bool.false_or, beq_eq_false_iff_ne]
      exact h3
    refine ⟨?_, fun h2 hl => acting_ok ha rfl hbad rfl (adaptAct_of_live h2 hl),
      fun h2 h4 h5 => acting_fail ha rfl hbad rfl (adaptAct_of_not_live h2 h4 h5)⟩
    rintro rfl
    exact acting_ok ha rfl hbad rfl (adaptAct_restart h i u)
  case ser =>
    intro s u sub e f h x window thresh ha h1 h2 h3 h4 hx
    have hbad : (!inRange window.toNat 1 10000 || !inRange thresh.toNat 1 10000000) = false := by
      rw [(inRange_iff ..).2 ⟨h1, h2⟩, (inRange_iff ..).2 ⟨h3, h4⟩]
      rfl
    exact acting_ok ha rfl hbad rfl (congrArg (Res.ok 0) (serCfg_of_port hx window thresh))

/-! ### Lane tests and eye scans -/

theorem laneTestAct_enabled {s : State} {h : Handle} (he : (s.port (hPort h)).any (fun x => x.enabled) = true) (i : BitVec 3)
    (start : Bool) (t : LaneTest) : laneTestAct h i start t s = .fail .badMode s := if_pos he

theorem laneTestAct_start {s : State} {h : Handle} (he : (s.port (hPort h)).any (fun x => x.enabled) = false) (i : BitVec 3)
    (t : LaneTest) : laneTestAct h i true t s = .ok 0
      (((s.takeVote (20 + hPort h / 64) (testVote s (hPort h))).sampleLane (laneNamed h i)).modLane (laneNamed h i) (fun x =>
        { Lane.move .test x with test := some t, corr := 0 })) :=
   (if_neg (by simp [he])).trans (if_neg Bool.false_ne_true)

/-- A number that `freshScanId` answers is free, or every number that it tried is taken. -/
theorem freshScanId_free_or_all (taken : List (BitVec 16)) (n : Nat) (i : BitVec 16) :
    freshScanId taken n i ∉ taken ∨ ∀ k ≤ n, i + BitVec.ofNat 16 k ∈ taken := by
  induction n generalizing i with
  | zero =>
    by_cases h : i ∈ taken
    · exact .inr fun k hk => by simpa [Nat.le_zero.1 hk] using h
    · exact .inl h
  | succ n ih =>
    by_cases h : i ∈ taken
    · rw [freshScanId, if_pos (by simpa using h)]
      refine (ih (i + 1)).imp_right fun hall k hk => ?_
      cases k with
      | zero => simpa using h
      | succ k =>
        have hk' := hall k (by omega)
        rwa [BitVec.add_assoc, show (1 : BitVec 16) + BitVec.ofNat 16 k = BitVec.ofNat 16 (k + 1) by
          rw [Nat.add_comm, BitVec.ofNat_add]; rfl] at hk'
    · exact .inl (by rw [freshScanId, if_neg (by simpa using h)]; exact h)

/-- With fewer than 16 scans the number answered is free: the 17 that can be tried differ. -/
theorem freshScanId_not_mem {taken : List (BitVec 16)} (h : taken.length < 16) (i : BitVec 16) : freshScanId taken 16 i ∉ taken := by
  refine (freshScanId_free_or_all taken 16 i).resolve_right fun hall => ?_
  have hnodup : ((List.range 17).map (fun k => i + BitVec.ofNat 16 k)).Nodup := by
    refine List.Nodup.map_on (fun a ha b hb hab => ?_) List.nodup_range
    rw [List.mem_range] at ha hb
    have := BitVec.add_right_inj i |>.1 hab
    bv_omega
  have hle := (hnodup.subperm (l₂ := taken) fun y hy => by
    obtain ⟨k, hk, rfl⟩ := List.mem_map.1 hy
    exact hall k (by rw [List.mem_range] at hk; omega)).length_le
  rw [List.length_map, List.length_range] at hle
  omega

/-- The scan that EYE_SCAN_START puts on its lane. -/
def Scan.started (s : State) (queue : QueueNo) (h : Handle) (i : BitVec 3) (p : BitVec 256) : Scan :=
  { id := freshScanId ((chipletScans s (laneNamed h i / 128)).map (fun e => e.2.id)) 16 (s.free 16), queue := queue, port := h
    laneIdx := i, param := p, v := eyeSigned p 103 96, p := eyeSigned p 87 80, points := 0, startTime := s.now
    endTime := s.drawn.free 128, recover := (s.lane (laneNamed h i)).adapt == .recover, done := none }

theorem eyeStartAct_starts {s : State} {h : Handle} {i : BitVec 3} (queue : QueueNo) (p : BitVec 256)
    (hst : scannable (s.lane (laneNamed h i)).state = true) (hsc : (s.lane (laneNamed h i)).scan = none)
    (hn : (chipletScans s (laneNamed h i / 128)).length < 16) : eyeStartAct queue h i p s =
      .ok (Scan.started s queue h i p).id.toNat
        (s.modLane (laneNamed h i) (fun x => { x with scan := some (Scan.started s queue h i p) })).drawn.drawn := by
  unfold eyeStartAct
  simp only [hst, hsc, Bool.not_true, Option.isSome_none, Bool.false_eq_true, if_false, if_neg (Nat.not_le.2 hn)]
  rfl

/-- Settles O32: a test's start, a scan's start under a number that is free, and its status and abort. -/
theorem laneTestsComplete : Obligations.LaneTestsComplete := by
  unfold Obligations.LaneTestsComplete
  refine ⟨?test, ?start, ?scan⟩
  case test =>
    exact fun s u sub e f h i pattern loop gen chk ha hb => ⟨fun he => acting_fail ha rfl hb rfl (laneTestAct_enabled he ..),
      fun he => acting_ok ha rfl hb rfl (laneTestAct_start he ..)⟩
  case start =>
    rintro s u sub e f buf len h i eye dwell vMin vMax vStep pMin pMax pStep errStop p rfl ha hb hst hsc hn
    refine ⟨_, _, _, acting_ok ha rfl hb rfl (eyeStartAct_starts _ _ hst hsc hn), rfl, rfl, fun k hk hkid => ?_,
      rfl, rfl, rfl, rfl, rfl, rfl, rfl, rfl, rfl⟩
    refine freshScanId_not_mem (taken := (chipletScans u (laneNamed h i / 128)).map (fun e => e.2.id)) (by simpa using hn)
      (u.free 16) ?_
    rw [show freshScanId _ 16 (u.free 16) = k.2.id from hkid.symm]
    exact List.mem_map_of_mem hk
  case scan =>
    intro s u sub e f h id l y hf
    refine ⟨fun ha => acting_ok ha rfl rfl rfl ?_, fun ha => acting_ok ha rfl rfl rfl ?_⟩
    · simp only [eyeStatusAct, hf]
    · simp only [eyeAbortAct, hf]

end Sys2Proof.Machine
end

section
/-! PROOFS. The rows of a port's training, of its link and of its lanes. -/

namespace Sys2Proof.Machine

/-! ### Training -/

theorem signalOn_of_bound {s : State} {l p : Nat} (h : boundPort s l = some p) :
    signalOn l s = (s.modLane l (fun x => { x with sigDet := true })).tryTrain p := by
  have hb : boundPort (s.modLane l (fun x => { x with sigDet := true })) l = some p := h
  simp only [signalOn, hb]

theorem signalOn_of_unbound {s : State} {l : Nat} (h : boundPort s l = none) :
    signalOn l s = s.modLane l (fun x => { x with sigDet := true }) := by
  have hb : boundPort (s.modLane l (fun x => { x with sigDet := true })) l = none := h
  simp only [signalOn, hb]

theorem signalOff_of_bound {s : State} {l p : Nat} {x : Port} (h : boundPort s l = some p) (hx : s.port p = some x)
    (he : x.enabled = true) (hon : s.domOn (20 + p / 64) = true) :
    signalOff l s = (s.modLane l (fun x => { x with sigDet := false })).listen p := by
  have hb : boundPort (s.modLane l (fun x => { x with sigDet := false })) l = some p := h
  have hp : (s.modLane l (fun x => { x with sigDet := false })).port p = some x := hx
  have hd : (s.modLane l (fun x => { x with sigDet := false })).domOn (20 + p / 64) = true := hon
  simp only [signalOff, hb, hp, he, hd, Bool.and_self, if_true]

theorem signalOff_of_unbound {s : State} {l : Nat} (h : boundPort s l = none) :
    signalOff l s = s.modLane l (fun x => { x with sigDet := false }) := by
  have hb : boundPort (s.modLane l (fun x => { x with sigDet := false })) l = none := h
  simp only [signalOff, hb]

/-- The skews that an ALIGN_LOCK reports for a port's lanes, and their spread. -/
def lockSkews (p : Nat) (x : Port) (skews : List (BitVec 32)) : List Nat :=
  (lanesOf p x).map (fun l => (skews.getD (l - p) 0).toNat)

theorem lockAlign_of_align {s : State} {p : Nat} {x : Port} (hx : s.port p = some x) (ha : lanesIn s p .align = true)
    (skews : List (BitVec 32)) : lockAlign p skews s =
      let lo := (lockSkews p x skews).foldl min ((lockSkews p x skews).headD 0)
      if x.lanes == 1 || decide ((lockSkews p x skews).foldl max 0 - lo ≤ skewLimit (laneModeOf x.type)) then
        (foldNats (lanesOf p x) (fun a l => (a.sampleLane l).modLane l (Lane.enterUp s.tbNs ((skews.getD (l - p) 0).toNat - lo)))
          s).modLink p (fun k => { k with
            timeouts := 0, slowRaised := false, trainEnd := none, alignEnd := none, calibrated := false
            cleanNs := if k.rs = .none then some s.tbNs else none })
      else foldNats (lanesOf p x) (fun a l => a.modLane l (fun y => { y with amLock := true })) s := by
  simp only [lockAlign, hx, ha, Bool.true_and, if_true]
  rfl

theorem linkReached_iff {s : State} {p : Nat} {x : Port} (hx : s.port p = some x) (f : LinkState → Option Nat) {t : Nat}
    (hf : f x.link = some t) : linkReached s p f = decide (t ≤ s.tbNs) := by
  simp [linkReached, hx, hf, State.reached]

/-- A time-out that raises nothing yet, or raised LANE_TRAIN_SLOW before, and the eighth in a row. -/
theorem State.timeOut_of_port {s : State} {p : Nat} {x : Port} (hx : s.port p = some x) : s.timeOut p =
    let u := (foldNats (lanesOf p x) (fun a l => a.modLane l (fun y => { y with
        trainTimeouts := if y.trainTimeouts = 0xFF then 0xFF else y.trainTimeouts + 1 }))
      ((s.linkDown p).moveLanes p .backoff)).modLink p (fun k => { k with
        timeouts := x.link.timeouts + 1, trainEnd := none, alignEnd := none
        slowRaised := k.slowRaised || (decide (8 ≤ x.link.timeouts + 1) && !x.link.slowRaised)
        backoffEnd := some (s.tbNs + 10000000 * 2 ^ min x.link.timeouts 7) })
    if decide (8 ≤ x.link.timeouts + 1) && !x.link.slowRaised then
      u.raise (laneSource p) 0x040 0 (s.portGenOf p).toNat p
    else u := by
  simp only [State.timeOut, hx, Nat.add_sub_cancel]

theorem not_slow_of_early {x : Port} (h : x.link.timeouts < 7 ∨ x.link.slowRaised = true) :
    ¬ (decide (8 ≤ x.link.timeouts + 1) && !x.link.slowRaised) = true := by
  rcases h with h | h
  · simp
    omega
  · simp [h]

theorem trainExpiry_of_train {s : State} {p t : Nat} {x : Port} (hx : s.port p = some x) (ht : t ≤ s.tbNs)
    (he : x.link.trainEnd = some t) (hl : lanesIn s p .train = true) : trainExpiry p s = s.timeOut p :=
  if_pos (by simp [linkReached_iff hx (·.trainEnd) he, ht, hl])

theorem alignExpiry_of_align {s : State} {p t : Nat} {x : Port} (hx : s.port p = some x) (ht : t ≤ s.tbNs)
    (he : x.link.alignEnd = some t) (hl : lanesIn s p .align = true) : alignExpiry p s = s.timeOut p :=
  if_pos (by simp [linkReached_iff hx (·.alignEnd) he, ht, hl])

/-- Settles O35: each row's function where the port's lanes are in the state that the row needs. -/
theorem trainingComplete : Obligations.TrainingComplete := by
  unfold Obligations.TrainingComplete
  refine ⟨⟨?signal, fun s p ha => next_eq (if_pos ha), ?train, ?lock, fun s p ha => next_eq (if_pos ha), ?backoff⟩, ?late⟩
  case signal =>
    exact fun s l => ⟨fun h => ⟨next_eq (signalOn_of_unbound h), next_eq (signalOff_of_unbound h)⟩, fun p x h hx =>
      ⟨next_eq (signalOn_of_bound h), fun he hon => next_eq (signalOff_of_bound h hx he hon)⟩⟩
  case train =>
    intro s p x presets requests hx hl
    refine next_eq ?_
    simp only [trainDone, hx, hl, if_true]
    rfl
  case lock =>
    rintro s p x skews ds lo hi hx ha rfl rfl rfl
    have hlock := lockAlign_of_align hx ha skews
    refine ⟨fun h => next_eq (hlock.trans (if_pos ?_)), fun h1 h2 => next_eq (hlock.trans (if_neg ?_))⟩
    · rw [Bool.or_eq_true, beq_iff_eq, decide_eq_true_eq]
      exact h
    · rw [Bool.or_eq_true, beq_iff_eq, decide_eq_true_eq]
      exact fun h => h.elim h1 (Nat.not_le.2 h2)
  case backoff =>
    intro s p x t hx ht he hl
    exact next_eq (if_pos (by rw [linkReached_iff hx (·.backoffEnd) he, decide_eq_true ht, hl]; rfl))
  case late =>
    rintro s u p x t hx ht rfl
    have hout := State.timeOut_of_port hx
    refine ⟨?_, ?_, ?_⟩
    · rintro ⟨he, hl, hn⟩
      exact next_eq ((trainExpiry_of_train hx ht he hl).trans (hout.trans (if_neg (not_slow_of_early hn))))
    · rintro ⟨he, hl, hn, hs⟩
      exact next_eq ((trainExpiry_of_train hx ht he hl).trans (hout.trans (if_pos (by simp [hs]; omega))))
    · rintro ⟨he, hl, hn⟩
      exact next_eq ((alignExpiry_of_align hx ht he hl).trans (hout.trans (if_neg (not_slow_of_early hn))))

/-! ### The link -/

theorem rsFault_of_fault {s : State} {p : Nat} {x : Port} (hx : s.port p = some x) {f : RsFault} (hf : f ≠ .none) :
    rsFault p f s = (s.linkDown p).modLink p (fun k => { k with rs := f }) := by
  simp only [rsFault, hx, hf, if_false]

theorem rsFault_none_of_up {s : State} {p : Nat} {x : Port} (hx : s.port p = some x) (hl : lanesIn s p .up = true) :
    rsFault p .none s = s.modLink p (fun k => { k with
      rs := .none, cleanNs := if k.rs = .none then k.cleanNs else some s.tbNs }) := by
  simp only [rsFault, hx, hl, if_true, Bool.and_true, decide_eq_true_eq, ite_not]

theorem linkComesUp_of_clean {s : State} {p t : Nat} {x : Port} (hx : s.port p = some x) (hl : lanesIn s p .up = true)
    (hrs : x.link.rs = .none) (hh : x.held = false) (hc : x.link.calibrated = true) (hn : x.link.cleanNs = some t)
    (ht : t + 1000000 ≤ s.tbNs) : linkComesUp p s = s.modLink p (fun k => { k with up := true }) := by
  simp [linkComesUp, hx, hl, hrs, hh, hc, hn, State.reached, ht]

theorem flapHold_of_flapping {s : State} {p : Nat} {x : Port} (hx : s.port p = some x) (h0 : fld x.guard 31 24 ≠ 0)
    (hh : x.held = false) (hf : flapping x.link.downs (fld x.guard 31 24) (1000000000 * fld x.guard 23 12) = true) :
    flapHold p s = ((s.linkDown p).modLink p (fun k => { k with
      cleanNs := x.link.cleanNs, holdUntil := some (s.tbNs + 1000000000 * fld x.guard 11 0) })).raise
        (macSource p) 0x042 0 (s.portGenOf p).toNat p := by
  have h0' : (fld x.guard 31 24 != 0) = true := by simpa using h0
  simp only [flapHold, hx, h0', hh, hf, Bool.not_false, Bool.and_self, if_true]

/-- Settles O36: a fault takes the link down, a clean millisecond brings it up, and flapping holds it down. -/
theorem linkRowsComplete : Obligations.LinkRowsComplete := by
  unfold Obligations.LinkRowsComplete
  refine ⟨fun s p x hx => ⟨next_eq (rsFault_of_fault hx RsFault.noConfusion), next_eq (rsFault_of_fault hx RsFault.noConfusion),
      fun hl _ => next_eq (rsFault_none_of_up hx hl)⟩,
    fun s p x t hx hl hrs hh hc hn ht => next_eq (linkComesUp_of_clean hx hl hrs hh hc hn ht),
    fun s p x hx h0 hh hf => next_eq (flapHold_of_flapping hx h0 hh hf), fun s p x t hx hu ht => next_eq (if_pos ?_)⟩
  rw [linkReached_iff hx (·.holdUntil) hu, decide_eq_true ht]

/-! ### Lanes -/

theorem serEnd_of_up {s : State} {l p e : Nat} {x : Port} (hb : boundPort s l = some p) (hx : s.port p = some x)
    (hup : (s.lane l).state = .up) (he : e = (s.lane l).serStart + 1000000 * x.serWindow.toNat) (ht : e ≤ s.tbNs)
    (corrected symbols : Nat) : serEnd l corrected symbols s =
      if x.serThresh.toNat * symbols < corrected * 10000000 then
        (s.modLane l (Lane.endWindow corrected e)).raise (laneSource l) 0x041 1 (s.portGenOf p).toNat l
      else s.modLane l (Lane.endWindow corrected e) := by
  subst he
  simp only [serEnd, hb, hx, hup, decide_eq_true ht, beq_self_eq_true, Bool.and_self, if_true]

/-- A point that is done is written, and the scan goes on at the next point or ends. -/
theorem eyePoint_of_running {s : State} {l : Nat} {x : Scan} (hs : (s.lane l).scan = some x) (hd : x.done = none)
    (errors compared : Nat) : eyePoint l errors compared s =
      let s1 := s.emit (.dma (BitVec.ofNat 64 (fld x.param 255 192 + 64 + 8 * x.points)) (leBytes 8 (eyeEntry x errors compared).toNat))
      let y := { x with points := x.points + 1, endTime := s.now, recover := (s.lane l).adapt == .recover }
      match eyeNext x.param x.v x.p with
      | some n => s1.modLane l (fun z => { z with scan := some { y with v := n.1, p := n.2 } })
      | none => (s1.modLane l (fun z => { z with scan := some y })).endScan l 0x00 := by
  cases hn : eyeNext x.param x.v x.p <;> simp only [eyePoint, hs, hd, hn]

/-- Settles O37: each row of a lane under its condition, and the order of a scan's points. -/
theorem laneRowsComplete : Obligations.LaneRowsComplete := by
  unfold Obligations.LaneRowsComplete
  refine ⟨fun s l hu ha => next_eq (if_pos (by simp [hu, ha])), fun s l ha => next_eq (if_pos (by simp [ha])), ?late, ?test, ?ser,
    ?point, ?next⟩
  case late =>
    refine fun s l p t hb => ⟨fun ha hr ht => next_eq ?_, fun hu ha => next_eq ?_⟩
    · simp [recoverLate, hb, ha, hr, State.reached, ht]
    · simp [freezeLate, hb, hu, ha]
  case test =>
    intro s l t errors ht hst ha
    refine next_eq ?_
    simp only [testAcquires, ht, hst, ha, beq_self_eq_true, Bool.and_self, if_true]
  case ser =>
    intro s l p e corrected symbols x hb hx hup he ht
    have hend := serEnd_of_up hb hx hup he ht corrected symbols
    exact ⟨fun h => next_eq (hend.trans (if_neg (Nat.not_lt.2 h))), fun h => next_eq (hend.trans (if_pos h))⟩
  case point =>
    intro s l x errors compared hs hd
    have hpt := eyePoint_of_running hs hd errors compared
    refine ⟨fun v ph hn => next_eq (hpt.trans ?_), fun hn => next_eq (hpt.trans ?_)⟩ <;> rw [hn]
  case next =>
    refine fun p v ph => ⟨fun h => if_pos h, fun h1 h2 => ?_, fun h1 h2 => ?_⟩
    · rw [eyeNext, if_neg (Int.not_le.2 h1), if_pos h2]
    · rw [eyeNext, if_neg (Int.not_le.2 h1), if_neg (Int.not_le.2 h2)]

end Sys2Proof.Machine
end

section
/-! PROOFS. The commands on tables (R129 to R136): what each rule answers by what the table holds, and that a new route's location
and a cursor's number are its own. -/

namespace Sys2Proof.Machine

theorem bitAt_setWidth {n : Nat} (x : BitVec n) {w i : Nat} (h : i < w) : bitAt (x.setWidth w) i = bitAt x i := by
  rw [bitAt, bitAt, BitVec.toNat_setWidth, Nat.testBit_mod_two_pow, decide_eq_true h, Bool.true_and]

/-- Of more candidates than entries, all different, one is no entry. -/
theorem exists_mem_not_mem_of_length_lt {α : Type} {l t : List α} (hl : l.Nodup) (h : t.length < l.length) : ∃ x ∈ l, x ∉ t := by
  by_contra hall
  push Not at hall
  exact absurd (hl.subperm hall).length_le (Nat.not_le.2 h)

/-! ### HOST and LPM -/

section
variable {s t : State} {x : BitVec 256} {loc : Nat}

theorem hostAddAct_inserted (h : s.insertHost (entryKey x) { entry := x.setWidth 128, hit := if bitAt x 122 then 0 else hitAll s }
    (BitVec.ofNat 128 (fld x 255 128)) = (t, some loc)) : hostAddAct x s = .ok (BitVec.ofNat 384 loc) t := by
  simp only [hostAddAct, bitAt_setWidth x (by decide : 122 < 128), h]

theorem hostAddAct_full (h : s.insertHost (entryKey x) { entry := x.setWidth 128, hit := if bitAt x 122 then 0 else hitAll s }
    (BitVec.ofNat 128 (fld x 255 128)) = (t, none)) : hostAddAct x s = .fail .noRoom s.drawn := by
  simp only [hostAddAct, bitAt_setWidth x (by decide : 122 < 128), h]

end

section
variable {s : State} {v6 : Bool} {key : BitVec 136} {k : Nat}

theorem lpmAddAct_sets (hk : k = lpmKey (fld key 135 8) (fld key 7 0)) (h : Map.find (lpmTable s v6) k ≠ none ∨ lpmRoom s v6 = true)
    (res : BitVec 18) : lpmAddAct v6 key res s = .ok 0 (s.setLpm v6 (lpmPut (lpmTable s v6) v6 k res)) := by
  subst hk
  rcases h with h | h <;> simp [lpmAddAct, h]

theorem lpmAddAct_full (hk : k = lpmKey (fld key 135 8) (fld key 7 0)) (h : Map.find (lpmTable s v6) k = none)
    (hr : lpmRoom s v6 = false) (res : BitVec 18) : lpmAddAct v6 key res s = .fail .noRoom s := by
  subst hk
  simp [lpmAddAct, h, hr]

theorem lpmDelAct_deletes (hk : k = lpmKey (fld key 135 8) (fld key 7 0)) (h : Map.find (lpmTable s v6) k ≠ none) :
    lpmDelAct v6 key s = .ok 0 (s.setLpm v6 (Map.del (lpmTable s v6) k)) := by
  subst hk
  exact if_neg (by simpa using h)

theorem lpmDelAct_missing (hk : k = lpmKey (fld key 135 8) (fld key 7 0)) (h : Map.find (lpmTable s v6) k = none) :
    lpmDelAct v6 key s = .fail .notFound s := by
  subst hk
  exact if_pos (by simpa using h)

end

/-- The locations tried for a new route differ: there are more than routes, and fewer than locations. -/
theorem lpmPlace_free {t : Sys2Proof.Tbl LpmRoute} (v6 : Bool) (k : Nat) (h : t.length < 2 ^ 26) : ∀ x ∈ t, x.2.loc ≠ lpmPlace t v6 k := by
  have hnodup : ((List.range (t.length + 1)).map (fun n => Config.lpmLoc v6 k + BitVec.ofNat 26 n)).Nodup := by
    refine List.Nodup.map_on (fun a ha b hb hab => ?_) List.nodup_range
    rw [List.mem_range] at ha hb
    have heq := congrArg BitVec.toNat (BitVec.add_right_inj _ |>.1 hab)
    rwa [BitVec.toNat_ofNat, BitVec.toNat_ofNat, Nat.mod_eq_of_lt (by omega), Nat.mod_eq_of_lt (by omega)] at heq
  obtain ⟨l, hl, hfree⟩ := exists_mem_not_mem_of_length_lt (t := t.map (fun e => e.2.loc)) hnodup (by simp)
  have hok : t.all (fun e => e.2.loc != l) = true := by
    simp only [List.all_eq_true, bne_iff_ne]
    exact fun e he heq => hfree (heq ▸ List.mem_map_of_mem he)
  obtain ⟨y, hy⟩ := Option.isSome_iff_exists.1 ((List.find?_isSome (p := fun l => t.all (fun e => e.2.loc != l))).2 ⟨l, hl, hok⟩)
  have hplace : lpmPlace t v6 k = y := by
    rw [lpmPlace, hy]
    rfl
  have hall := List.find?_some hy
  simp only [List.all_eq_true, bne_iff_ne] at hall
  rw [hplace]
  exact hall

theorem lpmPut_route (t : Sys2Proof.Tbl LpmRoute) (v6 : Bool) (k : Nat) (res : BitVec 18) :
    ∃ r, Map.find (lpmPut t v6 k res) k = some r ∧ r.result = res ∧ (∀ old, Map.find t k = some old → r.loc = old.loc) ∧
      (Map.find t k = none → t.length < 2 ^ 26 → ∀ x ∈ t, x.2.loc ≠ r.loc) := by
  refine ⟨_, Map.find_ins_self .., rfl, fun old hold => ?_, fun hnone hlen => ?_⟩
  · rw [hold]
  · rw [hnone]
    exact lpmPlace_free v6 k hlen

/-- Settles O38: each command's rule by what the table holds of its key, and where a route set stands. -/
theorem tableCommandsComplete : Obligations.TableCommandsComplete := by
  unfold Obligations.TableCommandsComplete
  refine ⟨?add, ?delete, ?lpm, lpmPut_route⟩
  case add =>
    rintro s t sub e x slot h hb rfl
    exact ⟨fun loc hi => ready_ok h rfl hb rfl (hostAddAct_inserted hi), fun hi => ready_fail h rfl hb rfl (hostAddAct_full hi)⟩
  case delete =>
    intro s sub e key k h hk
    refine ⟨fun hf => ready_fail h rfl (by simp [hk]) rfl ?_, fun loc y hf => ready_ok h rfl (by simp [hk]) rfl ?_⟩
    · simp only [hostDeleteAct, hk, hf]
    · simp only [hostDeleteAct, hk, hf]
  case lpm =>
    exact fun s sub e key kind index tab k hk => ⟨fun hb h => ⟨fun hr => ready_ok h rfl hb rfl (lpmAddAct_sets hk hr _),
        fun hf hr => ready_fail h rfl hb rfl (lpmAddAct_full hk hf hr _)⟩,
      fun hb h => ⟨fun hf => ready_ok h rfl hb rfl (lpmDelAct_deletes hk hf),
        fun hf => ready_fail h rfl hb rfl (lpmDelAct_missing hk hf)⟩⟩

/-! ### SEARCH -/

section
variable {s : State} {q : Nat} {key : BitVec 310}

theorem searchAct_host {k : HKey} (hk : hostKeyOf key = some k) (buf : Addr) : searchAct 1 key q buf s =
    match hostFind s.tables.host k with
    | some e => .ok (pack 384 [(255, 0, hostWhole s q e.1 e.2), (287, 256, e.1)]) s
    | none => .fail .notFound s := by
  cases hf : hostFind s.tables.host k <;> simp [searchAct, hk, hf]

theorem searchAct_lpm {t : Nat} (ht : t = 2 ∨ t = 3) (key : BitVec 310) (q : Nat) (buf : Addr) (s : State) : searchAct t key q buf s =
    match Map.find (lpmTable s (t == 3)) (lpmKey (fld key 135 8) (fld key 7 0)) with
    | some r => .ok (pack 384 [(1, 0, fld r.result 17 16), (17, 2, fld r.result 15 0), (287, 256, r.loc.toNat)]) s
    | none => .fail .notFound s := by
  rcases ht with rfl | rfl
  · cases hf : Map.find (lpmTable s (2 == 3)) (lpmKey (fld key 135 8) (fld key 7 0)) <;> simp only [searchAct, hf]
  · cases hf : Map.find (lpmTable s (3 == 3)) (lpmKey (fld key 135 8) (fld key 7 0)) <;> simp only [searchAct, hf]

theorem searchAct_flow {k : FKey × Bool} (hk : flowKeyOf key = some k) (buf : Addr) : searchAct 4 key q buf s =
    match flowFind s k.1 with
    | some e => .ok (pack 384 [(287, 256, e.1)]) (s.writeBuf buf (leBytes 128 e.2.record.toNat))
    | none => .fail .notFound s := by
  cases hf : flowFind s k.1 <;> simp [searchAct, hk, hf]

end

theorem badSearch_lpm {tab : BitVec 8} {key : BitVec 310} (ht : tab = 2 ∨ tab = 3) (hk : lpmKeyOk (tab == 3) key = true) :
    badSearch tab.toNat key = false := by
  rcases ht with rfl | rfl
  · exact (congrArg not hk :)
  · exact (congrArg not hk :)

theorem noInfuser_of_member {s : State} (h : s.fuses.member ≠ 3) : noInfuser s = false := beq_eq_false_iff_ne.2 h

/-! ### NEXT -/

theorem cursorTab_cursorOf {tab : Nat} (n : Nat) (h : tab < 8) : cursorTab (cursorOf tab n) = tab :=
  (fld_pack_of_mem (by decide) (by simp) (by simp)).trans (Nat.mod_eq_of_lt h)

theorem cursorNo_cursorOf (tab : Nat) {n : Nat} (h : n < 2 ^ 61) : cursorNo (cursorOf tab n) = n :=
  (fld_pack_of_mem (by decide) (by simp) (by simp)).trans (Nat.mod_eq_of_lt h)

theorem cursorOf_ne_zero (tab : Nat) {n : Nat} (h0 : 0 < n) (h : n < 2 ^ 61) : cursorOf tab n ≠ 0 := by
  intro hz
  have hno := cursorNo_cursorOf tab h
  rw [hz] at hno
  exact absurd hno (Nat.ne_of_lt h0)

theorem cursorAt_giveCursor (s : State) (tab : Nat) (x : Cursor) (h0 : 0 < s.dev.nextCursor) (h : s.dev.nextCursor < 2 ^ 61) :
    cursorAt (s.giveCursor x) tab (cursorOf tab s.dev.nextCursor) = x := by
  have hfind : Map.find (s.giveCursor x).tables.cursors s.dev.nextCursor = some x := Map.find_ins_self ..
  simp only [cursorAt, if_neg (cursorOf_ne_zero tab h0 h), cursorNo_cursorOf tab h, hfind]

theorem badCursor_giveCursor (s : State) {tab : Nat} (x : Cursor) (ht : tab < 8) (h0 : 0 < s.dev.nextCursor)
    (h : s.dev.nextCursor < 2 ^ 61) : badCursor (s.giveCursor x) tab (cursorOf tab s.dev.nextCursor) = false := by
  have hnext : (s.giveCursor x).dev.nextCursor = s.dev.nextCursor + 1 := rfl
  have hin : inRange s.dev.nextCursor 1 s.dev.nextCursor = true := (inRange_iff ..).2 ⟨h0, Nat.le_refl _⟩
  simp [badCursor, cursorTab_cursorOf _ ht, cursorNo_cursorOf tab h, hnext, hin]

section
variable {s : State} {c : BitVec 64} {tab q count : Nat} {rest : List (Nat × List Byte)} {x : Cursor}

theorem nextAct_stale (buf : Addr) (h : oldCursor s c = true) : nextAct c buf tab q count s = .fail .stale s := if_pos h

theorem nextAct_ends (buf : Addr) (h : oldCursor s c = false) (hx : x = cursorAt s tab c)
    (hrest : rest = (tableBytes s tab q).filter (fun y => decide (x.loc ≤ y.1))) (hd : rest.drop count = []) :
    nextAct c buf tab q count s = .ok (pack 384 [(63, 0, 0xFFFFFFFFFFFFFFFF), (70, 64, (rest.take count).length),
        (71, 71, (tab == 1 && x.relocs != s.tables.relocs).toNat)])
      (if (rest.take count).isEmpty then s else s.writeBuf buf ((rest.take count).flatMap (·.2))) := by
  subst hx hrest
  unfold nextAct
  simp only [h, Bool.false_eq_true, if_false, hd, List.head?_nil]
  rfl

theorem nextAct_goes_on (buf : Addr) {y : Nat × List Byte} {l : List (Nat × List Byte)} (h : oldCursor s c = false)
    (hn : 1 ≤ count) (hx : x = cursorAt s tab c) (hrest : rest = (tableBytes s tab q).filter (fun y => decide (x.loc ≤ y.1)))
    (hd : rest.drop count = y :: l) : nextAct c buf tab q count s = .ok (pack 384 [
        (63, 0, (cursorOf tab s.dev.nextCursor).toNat), (70, 64, (rest.take count).length),
        (71, 71, (tab == 1 && x.relocs != s.tables.relocs).toNat)])
      ((s.writeBuf buf ((rest.take count).flatMap (·.2))).giveCursor { x with loc := y.1 }) := by
  have hne : (rest.take count).isEmpty = false := by
    have hr : rest ≠ [] := by
      rintro rfl
      simp at hd
    simpa [List.take_eq_nil_iff, hr] using Nat.one_le_iff_ne_zero.1 hn
  subst hx hrest
  unfold nextAct
  simp only [h, Bool.false_eq_true, if_false, hd, List.head?_cons, hne]

end

/-! ### FLUSH_BY_PORT -/

theorem flushAct_flow {s : State} {p : Nat} {withStatic : Bool} {l : List Nat} (vlan : Nat) (hl : l = flowsOfPort s p withStatic) :
    flushAct 4 p vlan withStatic s =
      if l.any (fun n => (Map.find s.tables.flows n).any (parkedAt s n)) then .wait s
      else .ok (BitVec.ofNat 384 l.length) (State.agents (foldNats l State.dropFlow s)) := by
  subst hl
  rfl

/-- Settles O39: SEARCH by table, NEXT by what is left after its COUNT, the flush by table, and TABLE_INFO. -/
theorem tableReadsComplete : Obligations.TableReadsComplete := by
  unfold Obligations.TableReadsComplete
  refine ⟨?host, ?lpm, ?flow, ?next, ?cursor, ?flushHost, ?flushFlow, ?info⟩
  case host =>
    intro s u sub e f key copy blk k ha hk hq
    have hbad : badSearch (1 : BitVec 8).toNat key = false := by
      show (hostKeyOf key).isNone = false
      rw [hk]
      rfl
    have habs : (!quadThere s (copyQuad s copy)) = false := by rw [hq]; rfl
    refine ⟨fun hf => acting_fail ha rfl hbad habs ((searchAct_host hk (BitVec.ofNat 64 (64 * blk.toNat))).trans ?_),
      fun loc y hf => acting_ok ha rfl hbad habs ((searchAct_host hk (BitVec.ofNat 64 (64 * blk.toNat))).trans ?_)⟩ <;> rw [hf]
  case lpm =>
    rintro s u sub e f key copy tab blk k ht rfl ha hk hq
    have hbad := badSearch_lpm ht hk
    have habs : (if tab = 4 then noInfuser s else !quadThere s (copyQuad s copy)) = false := by
      rcases ht with rfl | rfl <;> simp [hq]
    have hd : (if tab = 4 then keyDoms s (flowKeyOf key) else [36 + copyQuad s copy]) = [36 + copyQuad s copy] := by
      rcases ht with rfl | rfl <;> rfl
    have h3 : (tab.toNat == 3) = (tab == 3) := by rcases ht with rfl | rfl <;> rfl
    have hact := searchAct_lpm (t := tab.toNat) (by rcases ht with rfl | rfl <;> simp) key (copyQuad u copy)
      (BitVec.ofNat 64 (64 * blk.toNat)) u
    rw [h3] at hact
    refine ⟨fun hf => acting_fail ha hd hbad habs (hact.trans ?_), fun r hf => acting_ok ha hd hbad habs (hact.trans ?_)⟩ <;> rw [hf]
  case flow =>
    intro s u sub e f key copy blk k ha hk hm
    have hbad : badSearch (4 : BitVec 8).toNat key = false := by
      show (flowKeyOf key).isNone = false
      rw [hk]
      rfl
    have hd : keyDoms s (flowKeyOf key) = keyDoms s (some k) := by rw [hk]
    have habs : noInfuser s = false := noInfuser_of_member hm
    refine ⟨fun hf => acting_fail ha hd hbad habs ((searchAct_flow (q := copyQuad u copy) hk (BitVec.ofNat 64 (64 * blk.toNat))).trans ?_),
      fun loc x hf => acting_ok ha hd hbad habs ((searchAct_flow (q := copyQuad u copy) hk (BitVec.ofNat 64 (64 * blk.toNat))).trans ?_)⟩ <;> rw [hf]
  case next =>
    intro s u sub e f c buf tab copy n rest x ha hm h1 h64 ht1 ht4 hc hh hq
    have hbad : (misaligned buf || !inRange n.toNat 1 64 || !inRange tab.toNat 1 4 || badCursor s tab.toNat c) = false := by
      simp [hm, hc, (inRange_iff ..).2 ⟨h1, h64⟩, (inRange_iff ..).2 ⟨ht1, ht4⟩]
    have habs : (if tab = 4 then !hbmThere s (copyQuad s copy) else !quadThere s (copyQuad s copy)) = false := by
      split
      next h => simp [hh h]
      next => simp [hq]
    exact ⟨fun ho => acting_fail ha rfl hbad habs (nextAct_stale buf ho), fun ho hx hr =>
      ⟨fun hd => acting_ok ha rfl hbad habs (nextAct_ends buf ho hx hr hd),
        fun y l hd => acting_ok ha rfl hbad habs (nextAct_goes_on buf ho h1 hx hr hd)⟩⟩
  case cursor => exact fun s tab x ht h0 h => ⟨cursorAt_giveCursor s tab x h0 h, badCursor_giveCursor s x ht h0 h⟩
  case flushHost => exact fun s u sub e f port vlan static ha => acting_ok ha rfl rfl rfl rfl
  case flushFlow =>
    intro s u sub e f port vlan static l ha hm hl
    have habs : ((4 : BitVec 8) == 4 && noInfuser s) = false := by rw [noInfuser_of_member hm]; rfl
    exact ⟨fun hp => acting_wait ha rfl rfl habs ((flushAct_flow vlan.toNat hl).trans (if_pos hp)),
      fun hp => acting_ok ha rfl rfl habs ((flushAct_flow vlan.toNat hl).trans (if_neg (by simp [hp])))⟩
  case info =>
    exact fun s u sub e f tab copy ha hk hc => acting_ok ha rfl (by simp [hk]) (by simp [hc]) rfl

end Sys2Proof.Machine
end

section
/-! PROOFS. Learning and aging (R137 to R140), parity repair (R94, R133), and the commands and rows of rule sets (R109 to R118). -/

namespace Sys2Proof.Machine

/-! ### Learning, aging and parity repair -/

section
variable {s : State} {q : Nat} {r : LearnReq} {rest : List LearnReq}

variable {u : State} (hq : (s.quad q).learnQ = r :: rest) (hm : s.mode = .run)
  (hu : u = s.modQuad q (fun x => { x with learnQ := rest })) (hp : u.port r.port.toNat ≠ none)
include hq hm hu hp

theorem serveLearn_new (hf : hostFind u.tables.host { typ := 1, val := r.vlan.toNat * 2 ^ 48 + r.mac.toNat } = none) :
    serveLearn q s = u.learnNew q r := by
  subst hu
  simp only [serveLearn, hq, if_neg (not_not_intro hm), if_neg (mt Option.isNone_iff_eq_none.1 hp), hf]

theorem serveLearn_known {loc : Nat} {x : HostSlot}
    (hf : hostFind u.tables.host { typ := 1, val := r.vlan.toNat * 2 ^ 48 + r.mac.toNat } = some (loc, x)) :
    serveLearn q s = if isStatic x || frozen x || onPort r.port.toNat x then u else u.learnMove q loc x r := by
  subst hu
  simp only [serveLearn, hq, if_neg (not_not_intro hm), if_neg (mt Option.isNone_iff_eq_none.1 hp), hf]

end

/-- The next multiple of a period is later than the mark, has been reached, and is a multiple. -/
theorem nextMultiple_spec {period mark now n : Nat} (h : nextMultiple period mark now = some n) :
    mark < n ∧ n ≤ now ∧ period ∣ n := by
  unfold nextMultiple at h
  split at h
  · cases h
  · next hc =>
    cases h
    obtain ⟨hp, hlt⟩ := not_or.1 hc
    have hpos := Nat.pos_of_ne_zero hp
    refine ⟨?_, ?_, Dvd.intro_left _ rfl⟩
    · rw [Nat.mul_comm]
      exact Nat.lt_mul_div_succ mark hpos
    · exact (Nat.mul_le_mul_right _ (Nat.not_le.1 hlt)).trans (Nat.div_mul_le_self now period)

theorem perQuad_ne {t : Nat} (h : perQuad t = true) : t ≠ 4 := by
  rintro rfl
  exact Bool.noConfusion h

theorem repairParity_perQuad {s : State} {t copy : Nat} (loc : Nat) (good : Bool) (hm : s.mode ≠ .reset) (ht : perQuad t = true)
    (hq : quadThere s copy = true) : repairParity t copy loc good s =
    if good then (s.countQuad copy (32 + t) 1).raise (paritySource t copy) 0x063 1 1 (t * 2 ^ 40 + copy * 2 ^ 36 + loc)
    else ((s.countQuad copy (32 + t) 1).loseEntry t copy loc).raise (paritySource t copy) 0x063 2 1
      (t * 2 ^ 40 + copy * 2 ^ 36 + loc) := by
  rw [repairParity, if_neg hm, if_neg (by simpa using perQuad_ne ht), if_pos ht, if_neg (by simp [hq])]

theorem repairParity_flow {s : State} {copy : Nat} (loc : Nat) (good : Bool) (hm : s.mode ≠ .reset) (hh : hbmThere s copy = true) :
    repairParity 4 copy loc good s = ((s.losePath loc).countQuad copy 36 1).raise
      (0x2010 + 0x100 * copy + loc / 4 % 2097152 / 524288) 0x063 2 1 (4 * 2 ^ 40 + copy * 2 ^ 36 + loc) := by
  rw [repairParity, if_neg hm, if_pos (beq_self_eq_true 4), if_neg (by simp [hh])]

theorem repairParity_slice {s : State} {t copy : Nat} (loc : Nat) (good : Bool) (hm : s.mode ≠ .reset) (hlo : 0x10 ≤ t)
    (hhi : t ≤ 0x1A) (hpq : perQuad t = false) (hs : sliceThere s copy = true) : repairParity t copy loc good s =
    ((s.countSlice copy (288 + (t - 0x10)) 1).loseEntry t copy loc).raise (paritySource t copy) 0x063 2 1
      (t * 2 ^ 40 + copy * 2 ^ 36 + loc) := by
  have hin : inRange t 0x10 0x1A = true := (inRange_iff ..).2 ⟨hlo, hhi⟩
  have h4 : (t == 4) = false := beq_false_of_ne (by omega)
  rw [repairParity, if_neg hm, if_neg (by simp [h4]), if_neg (by simp [hpq]), if_neg (by simp [hin, hs])]

/-- Where control-store parity is repaired from the bundle: a slice's store with no good copy, or Infuser's in any case. -/
def FromBundle (s : State) (source : BitVec 16) (copy store : Nat) (good : Bool) : Prop :=
  (source.toNat / 4096 = 3 ∧ sliceThere s (source.toNat / 256 % 16) = true ∧ 0x10 ≤ source.toNat % 256 ∧
      source.toNat % 256 ≤ 0x33 ∧ good = false ∧ copy = source.toNat % 256 - 0x10 ∧ store = copy % 9) ∨
    (source.toNat / 4096 = 2 ∧ source.toNat / 256 % 16 < 4 ∧ hbmThere s (source.toNat / 256 % 16) = true ∧
      source.toNat % 256 = 0x14 ∧ copy = 0 ∧ store = 9)

section
variable {s : State} {source : BitVec 16} {bank : BitVec 1} {word : BitVec 14}

theorem repairStore_good (hm : s.mode ≠ .reset) (hhi : source.toNat / 4096 = 3) (hs : sliceThere s (source.toNat / 256 % 16) = true)
    (hlo : 0x10 ≤ source.toNat % 256) (hup : source.toNat % 256 ≤ 0x33)
    (hw : word.toNat < bankWords ((source.toNat % 256 - 0x10) % 9)) : repairStore source bank word true s =
    s.raise source.toNat 0x060 1 1 ((source.toNat % 256 - 0x10) * 2 ^ 40 + bank.toNat * 2 ^ 32 + word.toNat) := by
  have hin : inRange (source.toNat % 256) 0x10 0x33 = true := (inRange_iff ..).2 ⟨hlo, hup⟩
  simp [repairStore, hm, hhi, hs, hin, Nat.not_le.2 hw]

theorem repairStore_bundle {b : List Byte} {copy store : Nat} {good : Bool} (hm : s.mode ≠ .reset) (hb : s.dev.bundle = some b)
    (hw : word.toNat < bankWords store) (h : FromBundle s source copy store good) : repairStore source bank word good s =
    (s.setStore store (bank == 1) (patch (s.storeBank store (bank == 1)) (wordBytes store * word.toNat)
      (slice (bankOf store (storeImage b store)) (wordBytes store * word.toNat) (wordBytes store)))).raise
        source.toNat 0x060 2 1 (copy * 2 ^ 40 + bank.toNat * 2 ^ 32 + word.toNat) := by
  rcases h with ⟨hhi, hs, hlo, hup, rfl, rfl, rfl⟩ | ⟨hhi, hu, hh, hlow, rfl, rfl⟩
  · have hin : inRange (source.toNat % 256) 0x10 0x33 = true := (inRange_iff ..).2 ⟨hlo, hup⟩
    simp [repairStore, hm, hhi, hs, hin, Nat.not_le.2 hw, hb]
  · simp [repairStore, hm, hhi, hu, hh, hlow, Nat.not_le.2 hw, hb]

end

/-- Settles O43: the request by what the table holds, the boundary and the sweep by their due marks, and the repairs by where the
table or store lies. -/
theorem learnAndRepairComplete : Obligations.LearnAndRepairComplete := by
  unfold Obligations.LearnAndRepairComplete
  refine ⟨?learn, ?boundary, fun s mark => ⟨nextMultiple_spec, nextMultiple_spec⟩, ?age, ?quad, ?other, ?good, ?bundle⟩
  case learn =>
    intro s q r rest u hq hm hu hp
    refine ⟨fun hf => next_eq (serveLearn_new hq hm hu hp hf), fun loc x hf => ?_⟩
    have hk := serveLearn_known hq hm hu hp hf
    refine ⟨fun hx => next_eq (hk.trans (if_pos ?_)), fun h1 h2 h3 => next_eq (hk.trans (if_neg ?_))⟩
    · rcases hx with hx | hx | hx <;> simp [hx]
    · simp [h1, h2, h3]
  case boundary =>
    intro s mark hm hd
    refine next_eq ?_
    simp only [moveBoundary, hd, if_neg (not_not_intro hm), bne_iff_ne, Bool.not_eq_true']
  case age =>
    intro s mark hm hd
    refine next_eq ?_
    simp only [ageAll, hd, if_neg (not_not_intro hm), Bool.or_eq_true, bne_iff_ne]
  case quad =>
    exact fun s table copy loc hm _ hpq hq =>
      ⟨next_eq (repairParity_perQuad _ true hm hpq hq), next_eq (repairParity_perQuad _ false hm hpq hq)⟩
  case other =>
    exact fun s table copy loc good hm => ⟨fun hh => next_eq (repairParity_flow _ good hm hh),
      fun hlo hhi hpq hs => next_eq (repairParity_slice _ good hm hlo hhi hpq hs)⟩
  case good => exact fun s source bank word hm hhi hs hlo hup hw => next_eq (repairStore_good hm hhi hs hlo hup hw)
  case bundle => exact fun s source bank word b copy store good hm hb hw h => next_eq (repairStore_bundle hm hb hw h)

/-! ### The commands on a rule set -/

section
variable {s : State} {g : Stage}

theorem onStage_open (f : Stage → Res) (hc : s.vers.commit = none) (hg : s.vers.stage = some g) : onStage s f = f g := by
  simp only [onStage, hc, hg, Option.isSome_none, Bool.false_eq_true, if_false]

theorem onStage_sealed (f : Stage → Res) (hc : s.vers.commit ≠ none) : onStage s f = .fail .busy s :=
  if_pos (Option.isSome_iff_ne_none.2 hc)

theorem onStage_none (f : Stage → Res) (hc : s.vers.commit = none) (hg : s.vers.stage = none) : onStage s f = .fail .noStage s := by
  simp only [onStage, hc, hg, Option.isSome_none, Bool.false_eq_true, if_false]

theorem not_full (h : g.profiles.length + g.nodes.length < 64) : decide (64 ≤ g.small) = false := decide_eq_false (Nat.not_le.2 h)

theorem setProfile_ok {n : Nat} (l : List Extract) (hc : s.vers.commit = none) (hg : s.vers.stage = some g)
    (h : Map.find g.profiles n ≠ none ∨ g.profiles.length + g.nodes.length < 64) :
    setProfile n l s = .ok 0 (s.setStage (some { g with profiles := Map.ins g.profiles n l })) := by
  refine (onStage_open _ hc hg).trans (if_neg ?_)
  rcases h with h | h
  · simp [h]
  · simp [not_full h]

theorem setProfile_limit {n : Nat} (l : List Extract) (hc : s.vers.commit = none) (hg : s.vers.stage = some g)
    (hn : Map.find g.profiles n = none) (h : 64 ≤ g.profiles.length + g.nodes.length) : setProfile n l s = .fail .versionLimit s :=
  (onStage_open _ hc hg).trans (if_pos (by simp [hn, Stage.small, h]))

theorem setNode_ok (d : BitVec 128) (hc : s.vers.commit = none) (hg : s.vers.stage = some g)
    (h : g.profiles.length + g.nodes.length < 64) : setNode d s = .ok 0 (s.setStage (some { g with
      nodes := Map.ins g.nodes (nodeCode d) (if bitAt d 119 then none else some d) })) :=
  (onStage_open _ hc hg).trans (if_neg (by simp [not_full h]))

theorem stageLoad_image {mask : BitVec 10} (img : List Byte) (hc : s.vers.commit = none) (hg : s.vers.stage = some g)
    (hb : (bitsSet 10 mask.toNat).any (bankBusy s) = false) : stageLoad mask (some img) s =
    if csOk s img then .ok 0 (foldNats (bitsSet 10 mask.toNat)
      (fun a i => a.setStore i (stagingBank s i) (bankOf i (storeImage img i))) (s.setStage (some { g with loaded := g.loaded ||| mask })))
    else .fail .badSignature s := by
  refine (onStage_open _ hc hg).trans ((if_neg (by simp [hb])).trans ?_)
  cases csOk s img <;> rfl

/-- The job of a commit that has started. -/
def commitJob (sub : Sub) (limit : BitVec 32) (s : State) : CommitJob :=
  .mk sub.queue sub.index true (s.tbNs + 1000 * limit.toNat) none []

theorem commitSet_open (sub : Sub) (wait : Bool) (limit : BitVec 32) (hc : s.vers.commit = none) (hg : s.vers.stage = some g) :
    commitSet sub.queue sub.index wait limit.toNat s = if (drainSlot s).isSome then
      (if wait then .wait (s.setCommit (some (commitJob sub limit s))) else .fail .busy s)
    else .wait (s.startBuild (commitJob sub limit s)) := onStage_open _ hc hg

end

theorem badCommit_of {limit : BitVec 32} {w : BitVec 1} (h : w = 0 ∨ 1 ≤ limit.toNat ∧ limit.toNat ≤ 1000000) :
    (w == 1 && !inRange limit.toNat 1 1000000) = false := by
  rcases h with rfl | h
  · rfl
  · rw [(inRange_iff ..).2 h, Bool.not_true, Bool.and_false]

theorem noStore_of {s : State} {mask : BitVec 10} (h : bitAt mask 9 = false ∨ s.fuses.member ≠ 3) :
    (bitAt mask 9 && s.fuses.member == 3) = false := by
  rcases h with h | h
  · rw [h, Bool.false_and]
  · rw [beq_false_of_ne h, Bool.and_false]

/-- Settles O44: each command's rule under `onStage`, by whether a set is open and sealed. -/
theorem ruleSetCommandsComplete : Obligations.RuleSetCommandsComplete := by
  unfold Obligations.RuleSetCommandsComplete
  refine ⟨?opens, ?abort, ?noAbort, fun s sub e h => ready_ok h rfl rfl rfl rfl, ?profile, ?node, ?load, ?noLoad, ?commit⟩
  case opens =>
    exact fun s sub e h => ⟨fun hg => ready_ok h rfl rfl rfl (if_neg (by simp [hg])),
      fun hg => ready_fail h rfl rfl rfl (if_pos (Option.isSome_iff_ne_none.2 hg))⟩
  case abort =>
    exact fun s sub e g h hg => ⟨fun hc => ready_ok h rfl rfl rfl (onStage_open _ hc hg),
      fun hc => ready_fail h rfl rfl rfl (onStage_sealed _ hc)⟩
  case noAbort => exact fun s sub e h hc hg => ready_fail h rfl rfl rfl (onStage_none _ hc hg)
  case profile =>
    exact fun s sub e n count x g h hb hc hg => ⟨fun hp => ready_ok h rfl hb rfl (setProfile_ok _ hc hg hp),
      fun hn hp => ready_fail h rfl hb rfl (setProfile_limit _ hc hg hn hp)⟩
  case node => exact fun s sub e d g h hb hc hg hp => ready_ok h rfl hb rfl (setNode_ok d hc hg hp)
  case load =>
    intro s u sub e f buf len mask img g h ha hseg habs hc hg hb
    have hbad : (misaligned buf || segMask img != mask.toNat) = false := by simp [ha, hseg]
    have hab : (bitAt mask 9 && s.fuses.member == 3) = false := noStore_of habs
    have hact := stageLoad_image img hc hg hb
    exact ⟨fun hok => acting_fail h rfl hbad hab (hact.trans (if_neg (by simp [hok]))),
      fun hok => acting_ok h rfl hbad hab (hact.trans (if_pos hok))⟩
  case noLoad =>
    intro s u sub e f buf len mask h ha habs
    have hab : (bitAt mask 9 && s.fuses.member == 3) = false := noStore_of habs
    exact acting_fail h rfl (by simp [ha]) hab rfl
  case commit =>
    intro s sub e limit g w h hc hg hw
    have hbad := badCommit_of hw
    have hact := fun b => commitSet_open sub b limit hc hg
    refine ⟨fun hd => ready_wait h rfl hbad rfl ((hact _).trans (if_neg (by simp [hd]))), ?_, ?_⟩
    · rintro hd rfl
      exact ready_fail h rfl hbad rfl ((hact _).trans (if_pos (Option.isSome_iff_ne_none.2 hd)))
    · rintro hd rfl
      exact ready_wait h rfl hbad rfl ((hact _).trans (if_pos (Option.isSome_iff_ne_none.2 hd)))

/-! ### The rows of a commit and of its drain -/

/-- Settles O45: the switch, the drain, its delay, and the commit that waits, each at the condition of its row. -/
theorem versionRowsComplete : Obligations.VersionRowsComplete := by
  unfold Obligations.VersionRowsComplete
  refine ⟨?switch, ?drained, ?slow, ?waits⟩
  case switch =>
    rintro s j t old new hd rfl rfl
    refine ⟨_, rfl, next_eq ?_⟩
    simp only [switchVersions, hd]
  case drained =>
    intro s b hd hf hc hr hl
    have hlive := (State.domLive_iff s).2 ⟨hr, hl⟩
    refine next_eq ?_
    simp only [drained, hd]
    exact if_neg (by simp [hf, hc, hlive])
  case slow =>
    intro s b hd hs ht
    refine next_eq ?_
    simp only [drainSlow, hd]
    exact if_neg (by simp [hs, ht])
  case waits =>
    intro s j hj hw
    refine ⟨fun hd hr hl => next_eq ?_, fun ht => next_eq ?_⟩
    · have hlive := (State.domLive_iff s).2 ⟨hr, hl⟩
      simp only [resumeCommit, hj]
      exact if_pos (by simp [hw, hd, hlive])
    · simp only [limitCommit, hj]
      exact if_pos (by simp [hw, ht])

end Sys2Proof.Machine
end

section
/-! PROOFS. The commands on flow profiles and records (R162, R171 to R173), and the rows of Infuser's partitions (R150, R154,
R158, R169). -/

namespace Sys2Proof.Machine

/-! ### A command whose unit is absent -/

theorem firstStatus_of_absent {s : State} {row : CmdRow} {e : Exec} {b : Body}
    (h : (firstStatus s row e { act := .wait }).isNone = true) (hb : b.bad s = false) (ha : b.absent s = true) :
    firstStatus s row e b = some .unitAbsent := by
  unfold firstStatus at *
  simp only [hb, ha, Bool.or_true, Bool.false_eq_true, if_false, if_true] at *
  (repeat' split at h) <;> simp_all

theorem ready_absent {s : State} {row : CmdRow} {sub : Sub} {param : BitVec 384} {e : Exec} {b : Body}
    (h : s.ready row sub param e = true) (hb : b.bad s = false) (ha : b.absent s = true) :
    (Host.Outcome.next (runCommand row sub param b s) : Host.Outcome State Fault Refusal) = .next (s.refused sub e .unitAbsent) := by
  obtain ⟨⟨hr, hl⟩, he, ho, hp, hbg, hst⟩ := State.ready_iff h
  exact next_eq (runCommand_of_firstStatus hr hl he ho hp hbg (firstStatus_of_absent hst hb ha))

/-! ### Profiles -/

section
variable {s : State}

theorem refusesNothing {b : Bool} (hb : b = false) : (!noInfuser s && b) = false := by
  rw [hb, Bool.and_false]

theorem profileSet_ok {n : Nat} {b : List Byte} {p : BitVec 512} (hp : p = BitVec.ofNat 512 (leNat (b.take 64)))
    (h : fld p 511 507 = fld (profileAt s n) 511 507 ∨ profileHeld s n = false) :
    profileSet n (some b) s = .ok 0 (s.modTables (fun t => { t with profiles := Map.put 0 t.profiles n p })) := by
  subst hp
  refine if_neg ?_
  rcases h with h | h <;> simp [h]

theorem profileSet_inUse {n : Nat} {b : List Byte} {p : BitVec 512} (hp : p = BitVec.ofNat 512 (leNat (b.take 64)))
    (h : fld p 511 507 ≠ fld (profileAt s n) 511 507) (hh : profileHeld s n = true) :
    profileSet n (some b) s = .fail .inUse s := by
  subst hp
  exact if_pos (by simp [h, hh])

end

/-! ### FLOW_INSTALL -/

section
variable {s : State}

/-- A twin's place leaves its primary where it is. -/
theorem State.putTwin_done {loc : Nat} {k : FKey} {x : Xlate} {origLo : Bool} {keep : Option Nat} {t : State} {l : Nat}
    (h : s.putTwin loc k x origLo keep = .done t l) : l = loc := by
  simp only [State.putTwin] at h
  (repeat' split at h) <;> cases h <;> rfl

/-- A record that is replaced keeps its place. -/
theorem State.installBlock_replaced {r : BitVec 1024} {old : Nat × FlowSlot} {t : State} {l : Nat}
    (h : s.installBlock r (some old) = .done t l) : l = old.1 := by
  simp only [State.installBlock, State.takeSpot] at h
  split at h
  · cases h
  · split at h
    · cases h
      rfl
    · split at h
      · next hd =>
        cases h
        exact State.putTwin_done hd
      · next hne => exact absurd h (hne _ _)

/-- What FLOW_INSTALL answers by how the placing of its record ends. -/
def Placed.answer (s : State) (first replaced : Bool) (r : BitVec 1024) : Placed → Res
  | .full => .fail .noRoom s
  | .wait loc => .wait (if first then s.countPart (locPart loc) 227 else s)
  | .done t loc => .ok (pack 384 [(63, 0, flowIdAt t loc), (89, 64, loc)])
      (if replaced then t else (t.countPart (locPart loc) 230).postFlow 1 (recProfile r) (flowIdAt t loc) loc (0, 0)).agents

variable {b : List Byte} {r : BitVec 1024}

/-- The install of a block whose record, if it has one, is replaced and has no parked header, and whose port is free. -/
theorem flowInstallAct_places {replace : Bool} (first : Bool) (hr : r = BitVec.ofNat 1024 (leNat (b.take 128)))
    {old : Option (Nat × FlowSlot)} (hold : flowFind s (blockKey r).1 = old) (hrep : old.isSome = true → replace = true)
    (hpark : ∀ e, old = some e → parkedAt s e.1 e.2 = false)
    (hport : ∀ k, blockSnat s r = some k → (s.vacated old).tables.snat.contains k = false) :
    flowInstallAct replace first (some b) s = (s.installBlock r old).answer s first old.isSome r := by
  have h1 : (old.isSome && !replace) = false := by
    cases hs : old.isSome
    · rfl
    · rw [hrep hs, Bool.not_true, Bool.and_false]
  have h2 : old.any (fun e => parkedAt s e.1 e.2) = false := (Option.any_eq_false ..).2 hpark
  have h3 : (blockSnat s r).any (fun k => (s.vacated old).tables.snat.contains k) = false := (Option.any_eq_false ..).2 hport
  subst hr
  cases hb : s.installBlock (BitVec.ofNat 1024 (leNat (b.take 128))) old <;>
    simp only [flowInstallAct, hold, h1, h2, h3, hb, Placed.answer, Bool.false_eq_true, if_false]

theorem flowInstallAct_inUse (first : Bool) (hr : r = BitVec.ofNat 1024 (leNat (b.take 128))) {x : Nat × FlowSlot}
    (hold : flowFind s (blockKey r).1 = some x) : flowInstallAct false first (some b) s = .fail .inUse s := by
  subst hr
  simp only [flowInstallAct, hold]
  rfl

theorem flowInstallAct_parked (first : Bool) (hr : r = BitVec.ofNat 1024 (leNat (b.take 128))) {x : Nat × FlowSlot}
    (hold : flowFind s (blockKey r).1 = some x) (hp : parkedAt s x.1 x.2 = true) :
    flowInstallAct true first (some b) s = .wait s := by
  subst hr
  simp only [flowInstallAct, hold]
  exact if_pos hp

end

/-! ### FLOW_DELETE and FLOW_GET -/

section
variable {s : State} {key : BitVec 310} {k : FKey × Bool}

theorem flowDeleteAct_missing (hk : flowKeyOf key = some k) (hf : flowFind s k.1 = none) :
    flowDeleteAct key s = .fail .notFound s := by
  simp only [flowDeleteAct, hk, hf]

theorem flowDeleteAct_found (hk : flowKeyOf key = some k) {e : Nat × FlowSlot} (hf : flowFind s k.1 = some e) :
    flowDeleteAct key s = if parkedAt s e.1 e.2 then .wait s else .ok 0 (s.dropFlow e.1).agents := by
  simp only [flowDeleteAct, hk, hf]

theorem flowGetAct_missing {loc : Nat} (buf : Addr) (id : BitVec 64) (h : flowAt s loc = none) :
    flowGetAct buf id loc s = .fail .notFound s := by
  simp only [flowGetAct, h]

theorem flowGetAct_found {loc : Nat} {x : FlowSlot} (buf : Addr) (id : BitVec 64) (h : flowAt s loc = some x) :
    flowGetAct buf id loc s = if recFlowId x.record == id.toNat then .ok 0 (s.writeBuf buf (leBytes 128 x.record.toNat))
      else .fail .notFound s := by
  simp only [flowGetAct, h]

end

/-- Settles O48: each command's rule by what Infuser holds at its profile, key or location. -/
theorem flowCommandsComplete : Obligations.FlowCommandsComplete := by
  unfold Obligations.FlowCommandsComplete
  refine ⟨⟨?set, ?get, ?status⟩, ?install, ?absent, ?noData, ?delete, ?read⟩
  case set =>
    intro s u sub e f buf n b p h ha hp hb hm
    have hbad : badFlowProfile s (BitVec.ofNat 512 (leNat (b.take 64))) = false := hp ▸ hb
    have hall := refusesNothing (s := s) (show (misaligned buf || badFlowProfile s (BitVec.ofNat 512 (leNat (b.take 64)))) = false by
      simp [ha, hbad])
    have hno := noInfuser_of_member hm
    exact ⟨fun hs => acting_ok h rfl hall hno (profileSet_ok hp hs), fun hs hh => acting_fail h rfl hall hno (profileSet_inUse hp hs hh),
      acting_fail h rfl (by simp [ha]) hno rfl⟩
  case get => exact fun s u sub e f buf n h ha hm => acting_ok h rfl (refusesNothing ha) (noInfuser_of_member hm) rfl
  case status => exact fun s u sub e f q h hq => acting_ok h rfl rfl (by simp [hq]) rfl
  case install =>
    intro s u sub e f buf w b r h ha hr hb hm
    have hbad : badBlock s (BitVec.ofNat 1024 (leNat (b.take 128))) = false := hr ▸ hb
    have hall := refusesNothing (s := s) (show (misaligned buf || badBlock s (BitVec.ofNat 1024 (leNat (b.take 128)))) = false by
      simp [ha, hbad])
    have hno := noInfuser_of_member hm
    refine ⟨?_, ?_, fun hnone hport => ?_⟩
    · rintro x hx rfl
      exact acting_fail h rfl hall hno (flowInstallAct_inUse true hr hx)
    · rintro loc x hx rfl
      refine ⟨fun hp => acting_wait h rfl hall hno (flowInstallAct_parked true hr hx hp), fun hp hport => ?_⟩
      have hact := flowInstallAct_places (replace := true) true hr hx (fun _ => rfl) (by simpa using hp) hport
      refine ⟨fun t new hd => ?_, fun l hw => acting_wait h rfl hall hno (hact.trans (by rw [hw]; rfl))⟩
      obtain rfl := State.installBlock_replaced hd
      exact ⟨rfl, acting_ok h rfl hall hno (hact.trans (by rw [hd]; rfl))⟩
    · have hact := flowInstallAct_places (replace := w == 1) true hr hnone (fun hs => absurd hs (by simp)) (by simp) hport
      exact ⟨fun hfull => acting_fail h rfl hall hno (hact.trans (by rw [hfull]; rfl)),
        fun l hw => acting_wait h rfl hall hno (hact.trans (by rw [hw]; rfl)),
        fun t loc hd => acting_ok h rfl hall hno (hact.trans (by rw [hd]; rfl))⟩
  case absent =>
    intro s sub e buf w data hm h
    have hno : noInfuser s = true := by simpa [noInfuser] using hm
    exact ready_absent h (by simp [hno]) hno
  case noData => exact fun s sub e buf w h ha hm => ready_fail h rfl (by simp [ha]) (noInfuser_of_member hm) rfl
  case delete =>
    intro s u sub e f key k h hk hm
    have hd : keyDoms s (flowKeyOf key) = keyDoms s (some k) := congrArg _ hk
    have hall := refusesNothing (s := s) (b := (flowKeyOf key).isNone) (by simp [hk])
    have hno := noInfuser_of_member hm
    exact ⟨fun hf => acting_fail h hd hall hno (flowDeleteAct_missing hk hf),
      fun loc x hf hp => acting_ok h hd hall hno ((flowDeleteAct_found hk hf).trans (if_neg (by simp [hp]))),
      fun loc x hf hp => acting_wait h hd hall hno ((flowDeleteAct_found hk hf).trans (if_pos hp))⟩
  case read =>
    intro s u sub e f buf id loc h ha hloc hq
    have hall := refusesNothing (s := s) (show (misaligned buf || decide (33554432 ≤ loc.toNat)) = false by simp [ha, hloc])
    have hno : (!hbmThere s (locQuad loc.toNat)) = false := by simp [hq]
    exact ⟨fun hf => acting_fail h rfl hall hno (flowGetAct_missing _ _ hf),
      fun x hf hid => acting_fail h rfl hall hno ((flowGetAct_found _ _ hf).trans (if_neg (by simpa using hid))),
      fun x hf hid => acting_ok h rfl hall hno ((flowGetAct_found _ _ hf).trans (if_pos (by simpa using hid)))⟩

/-! ### The rows of Infuser -/

section
variable {s : State} {p : Nat}

theorem takeHeader_runs {h : FlowHdr} {rest : List FlowHdr} (hi : (s.part p).input = h :: rest) (hr : infuserRuns s (p / 4) = true)
    (up : Upset) : takeHeader p up s = (s.modPart p (fun x => { x with input := rest })).runUpset h (p / 4) up true := by
  simp only [takeHeader, hi, hr, Bool.not_true, Bool.false_eq_true, if_false]

theorem returnFetch_resumes {loc : Nat} {f : Fetch} (hf : fetchAt s p loc = some f) (hr : infuserRuns s (p / 4) = true)
    (us : List Upset) :
    returnFetch p loc .good us s = fetchResumed p loc f.parked us (s.endFetch p f) ∧
    returnFetch p loc .corrected us s = fetchResumed p loc f.parked us
      ((s.endFetch p f).raise (0x2010 + 0x100 * (p / 4) + p % 4) 0x072 1 1 loc) ∧
    returnFetch p loc .uncorrectable us s = fetchResumed p loc f.parked us ((s.endFetch p f).loseRecord p loc) := by
  simp only [returnFetch, hf, hr, Bool.not_true, Bool.false_eq_true, if_false, fetchResumed, and_self]

theorem abandonFetch_late {loc : Nat} {f : Fetch} (hf : fetchAt s p loc = some f) (hr : infuserRuns s (p / 4) = true)
    (ht : f.issueNs + 20000 ≤ s.tbNs) : abandonFetch p loc s = (f.parked.foldl (fun a h => a.noState h.restored)
      (((s.endFetch p f).countPart p 229).raise (0x2010 + 0x100 * (p / 4) + p % 4) 0x071 2 1 loc)).unpinned p loc := by
  simp only [abandonFetch, hf]
  exact if_neg (by simp [hr, ht])

end

/-- Settles O49: each row where Infuser runs and its header, fetch or sweep is there. -/
theorem infuserRowsComplete : Obligations.InfuserRowsComplete := by
  unfold Obligations.InfuserRowsComplete
  refine ⟨?header, ?fetch, ?sweep⟩
  case header =>
    rintro s u p h rest hi hr rfl
    have hrow := fun up => takeHeader_runs hi hr up
    exact ⟨next_eq (hrow _), fun _ _ _ _ => next_eq (hrow _), fun _ _ _ => next_eq (hrow _), fun _ _ => next_eq (hrow _),
      fun _ _ _ => next_eq (hrow _)⟩
  case fetch =>
    rintro s u p loc f us hf hr rfl
    obtain ⟨hgood, hcorrected, hlost⟩ := returnFetch_resumes hf hr us
    exact ⟨next_eq hgood, next_eq hcorrected, next_eq hlost, fun ht => next_eq (abandonFetch_late hf hr ht)⟩
  case sweep =>
    intro s p hr
    refine ⟨fun mark hd => next_eq ?_, fun hd => next_eq ?_⟩
    · simp only [sweep, hd, hr, Bool.not_true, Bool.false_eq_true, if_false]
    · simp only [sweep, hd]

end Sys2Proof.Machine
end

section
/-! PROOFS. The commands on buffers and VOQs (R178, R181, R193), gate lists (R217 to R221), and the rows of pause and PFC (R79 to
R82). -/

namespace Sys2Proof.Machine

/-! ### Buffers and VOQs -/

section
variable {s t : State} {v n : Nat}

theorem flushVoq_done (sub : Sub) (h : s.discardVoq v = (t, n)) (hs : (t.voq v).state = .onDie) :
    flushVoq sub v s = .ok ((BitVec.ofNat 32 (sat 32 n)).setWidth 384) t := by
  simp only [flushVoq, h, hs]
  rfl

theorem flushVoq_walks (sub : Sub) (h : s.discardVoq v = (t, n)) (hs : (t.voq v).state ≠ .onDie) : flushVoq sub v s =
    .wait (t.modVoq v (fun y => { y with waiters := y.waiters ++ [(sub.queue, sub.index, BitVec.ofNat 32 (sat 32 n))] })) := by
  simp only [flushVoq, h]
  exact if_neg (mt beq_iff_eq.1 hs)

end

theorem walkDone_flushing {s : State} {v : Nat} (ecc : SpillEcc) (hs : (s.voq v).state = .flushing) : walkDone v ecc s =
    State.endFlush (State.modVoq (((s.spillGive (voqSlice v / 4) (Runs.split (Runs.count (s.voq v).walk -
      min (unreachedBy ecc) (Runs.count (s.voq v).walk)) (s.voq v).walk).1).loseCells (voqSlice v / 4)
        (min (unreachedBy ecc) (Runs.count (s.voq v).walk))).spillFault (voqSlice v / 4) ecc) v
          (fun y => { y with walk := [], state := .onDie })) v :=
  if_pos (beq_iff_eq.2 hs)

/-- Settles O50: the class settings act at once, a flush by whether a walk is left, and the walk by what it reaches. -/
theorem bufferCommandsComplete : Obligations.BufferCommandsComplete := by
  unfold Obligations.BufferCommandsComplete
  refine ⟨?set, fun s u sub e f h c ha => acting_ok ha rfl rfl rfl rfl, ?flush, ?walk⟩
  case set =>
    intro s u sub e f h c v ha hb hab
    have hno : (bitAt v 31 && s.fuses.member == 3) = false := by
      rcases hab with hab | hab
      · rw [hab, Bool.false_and]
      · rw [beq_false_of_ne hab, Bool.and_false]
    exact acting_ok ha rfl hb hno rfl
  case flush =>
    intro s u t sub e f h n ha hd
    refine ⟨fun hs => acting_ok ha rfl rfl rfl ?_, fun hs => acting_wait ha rfl rfl rfl ?_⟩
    · dsimp only
      rw [flushVoq_done sub hd hs]
    · dsimp only
      rw [flushVoq_walks sub hd hs]
  case walk =>
    rintro s t sl w v n r ecc hv hs rfl rfl rfl
    rw [hv] at hs ⊢
    exact next_eq (walkDone_flushing ecc hs)

/-! ### Gate lists -/

section
variable {s : State} {p : Nat} {x : Port}

theorem setGates_busy (base : TimeVal) (cycle count : Nat) (data : HostData) (hx : s.port p = some x) (hg : x.gatePend ≠ none) :
    setGates p base cycle count data s = .fail .busy s := by
  simp only [setGates, hx]
  exact if_pos (Option.isSome_iff_ne_none.2 hg)

theorem setGates_unread (base : TimeVal) (cycle count : Nat) (hx : s.port p = some x) (hg : x.gatePend = none) :
    setGates p base cycle count none s = .fail .dmaError s := by
  simp only [setGates, hx, hg, Option.isSome_none, Bool.false_eq_true, if_false]

/-- The list that GATE_LIST_SET makes of its buffer. -/
def gateListOf (base : TimeVal) (cycle count now : Nat) (bs : List Byte) : GateList :=
  { base := base, cycle := cycle, start := startOf (ofTime base) cycle now
    entries := (gateEntries count bs).map (fun e => (BitVec.ofNat 8 (fld e 63 56), fld e 31 0)) }

theorem setGates_read (base : TimeVal) (cycle count : Nat) (bs : List Byte) (hx : s.port p = some x) (hg : x.gatePend = none) :
    setGates p base cycle count (some bs) s = if (gateEntries count bs).any badGateEntry then .fail .badParam s
      else .ok ((timeOf (gateListOf base cycle count s.time.dev bs).start).setWidth 384)
        (s.modPort p (fun y => { y with gatePend := some (gateListOf base cycle count s.time.dev bs) })) := by
  simp only [setGates, hx, hg, Option.isSome_none, Bool.false_eq_true, if_false]
  rfl

theorem abortGates_none (hx : s.port p = some x) (hg : x.gatePend = none) : abortGates p s = .fail .notFound s := by
  simp only [abortGates, hx, Option.bind_some, hg]

theorem abortGates_pending {l : GateList} (hx : s.port p = some x) (hg : x.gatePend = some l) : abortGates p s =
    if l.start < s.time.dev + 2000 * nsUnit then .fail .busy s
    else .ok 0 (s.modPort p (fun y => { y with gatePend := none })) := by
  simp only [abortGates, hx, Option.bind_some, hg]

theorem startList_starts {l : GateList} (hx : s.port p = some x) (hg : x.gatePend = some l) (ht : l.start ≤ s.sliceDev (p / 64)) :
    startList p s = (foldNats (classes.filter (fun c => !l.opens c l.start && x.gateOper.all (fun o => o.opens c (l.start - 1))))
      (fun a c => a.countWaits p c) s).modPort p (fun y => { y with gateOper := some l, gatePend := none }) := by
  simp only [startList, hx, hg, if_neg (Nat.not_lt.2 ht)]

theorem entryChange_counts {l : GateList} {g : Seg} (hx : s.port p = some x) (hl : x.gateAt (s.sliceDev (p / 64)) = some l)
    (hg : l.segAt (s.sliceDev (p / 64)) = some g) {began : Nat}
    (hb : began = s.sliceDev (p / 64) - (l.pos (s.sliceDev (p / 64)) - g.lo * nsUnit)) : entryChange p s = foldNats
      (classes.filter (fun c => !bitAt g.gates c && decide (0 < began) && x.gateOpen c (began - 1)))
        (fun a c => a.countWaits p c) s := by
  subst hb
  simp only [entryChange, hx, hl, hg]

end

/-- Settles O51: each command and row by the port's pending list. -/
theorem gateCommandsComplete : Obligations.GateCommandsComplete := by
  unfold Obligations.GateCommandsComplete
  refine ⟨?set, ?get, ?abort, fun s p x hx => ⟨fun l hg ht => next_eq (startList_starts hx hg ht), ?change⟩⟩
  case set =>
    rintro s u sub e f base cycle n buf g bs x p l rfl h ha hb h1 h2 h3 hx rfl
    have hin : inRange cycle.toNat 1000 1000000000 = true := (inRange_iff ..).2 ⟨h1, h2⟩
    have hbad : (misaligned buf || badTime base || !inRange cycle.toNat 1000 1000000000 || decide (1024 < n.toNat)) = false := by
      simp [ha, hb, hin, h3]
    exact ⟨fun hg => acting_fail h rfl hbad rfl (setGates_busy base cycle.toNat n.toNat (some bs) hx hg),
      fun hg => acting_fail h rfl hbad rfl (setGates_unread base cycle.toNat n.toNat hx hg),
      fun hg he => acting_fail h rfl hbad rfl ((setGates_read base cycle.toNat n.toNat bs hx hg).trans (if_pos he)),
      fun hg he => acting_ok h rfl hbad rfl ((setGates_read base cycle.toNat n.toNat bs hx hg).trans (if_neg (by simp [he])))⟩
  case get =>
    rintro s u sub e f g len buf x y p bs rfl h ha hy hx hlen rfl
    refine acting_ok h rfl ?_ rfl ?_
    · simp only [ha, hy, Bool.false_or]
      exact decide_eq_false (Nat.not_lt.2 hlen)
    · simp only [getGates, hx]
  case abort =>
    rintro s u sub e f g x p rfl h hx
    exact ⟨fun hg => acting_fail h rfl rfl rfl (abortGates_none hx hg),
      fun l hg ht => acting_fail h rfl rfl rfl ((abortGates_pending hx hg).trans (if_pos ht)),
      fun l hg ht => acting_ok h rfl rfl rfl ((abortGates_pending hx hg).trans (if_neg (Nat.not_lt.2 ht)))⟩
  case change =>
    rintro l g now began rfl hl hg hb
    exact next_eq (entryChange_counts hx hl hg hb)

/-! ### Pause and PFC -/

section
variable {s : State} {p : Nat} {x : Port} (hx : s.port p = some x)
include hx

theorem takePfc_held (hm : macUp s p = true) (hh : x.held = true) (en : BitVec 8) (qs : List (BitVec 16)) (n : Nat) :
    takePfc p en qs n s = (s.countRx p n).countPort p 18 1 := by
  simp only [takePfc, hx, hm, hh, Bool.not_true, Bool.false_eq_true, if_false, if_true]

theorem takePause_held (hm : macUp s p = true) (hh : x.held = true) (qu : BitVec 16) (n : Nat) :
    takePause p qu n s = (s.countRx p n).countPort p 18 1 := by
  simp only [takePause, hx, hm, hh, Bool.not_true, Bool.false_eq_true, if_false, if_true]

theorem takePause_consumed (hm : macUp s p = true) (hh : x.held = false) (qu : BitVec 16) (n : Nat) : takePause p qu n s =
    if bitAt x.cfg 15 then (foldNats classes (fun a c => a.modPort p (fun y => y.modPause c (pauseClass x s.tbNs qu.toNat)))
      (s.countRx p n)).countPort p 7 1
    else (s.countRx p n).countPort p 16 1 := by
  simp only [takePause, hx, hm, hh, Bool.not_true, Bool.false_eq_true, if_false]
  cases bitAt x.cfg 15 <;> rfl

theorem takePfc_consumed (hm : macUp s p = true) (hh : x.held = false) (en : BitVec 8) (qs : List (BitVec 16)) (n : Nat) {t : State}
    {honoured : State → Nat → State}
    (hon : ∀ a c, honoured a c = a.modPort p (fun y => y.modPause c (pauseClass x s.tbNs (qs.getD c 0).toNat)))
    (ht : t = foldNats ((bitsSet 8 en.toNat).filter (fun c => bitAt x.cfg (40 + c))) (fun a c =>
      if stormIgnores x c then honoured a c else (honoured a c).countPort p (8 + c) 1) (s.countRx p n)) :
    takePfc p en qs n s = if (bitsSet 8 en.toNat).all (fun c => bitAt x.cfg (40 + c)) then t else t.countPort p 16 1 := by
  simp only [hon] at ht
  subst ht
  simp only [takePfc, hx, hm, hh, Bool.not_true, Bool.false_eq_true, if_false]

theorem pauseEnds_due {c t : Nat} (hu : (x.pauseOf c).untilNs = some t) (ht : t ≤ s.tbNs) :
    pauseEnds p c s = s.modPort p (fun y => y.modPause c PauseState.release) := by
  simp only [pauseEnds, hx, hu]
  exact if_pos (by simpa [State.reached] using ht)

theorem stormStarts_ignores {c : Nat} (hs : storms s x c = true) (hd : bitAt x.guard 62 = false) : stormStarts p c s =
    (s.modPort p (fun y => y.modPause c (fun a => PauseState.release { a with storm := true }))).raise (macSource p) 0x043 0
      (s.portGenOf p).toNat (p + 65536 * c) := by
  simp only [stormStarts, hx, hs, hd, Bool.not_true, Bool.false_eq_true, if_false]

theorem stormStarts_drops {c : Nat} (hs : storms s x c = true) (hd : bitAt x.guard 62 = true) : stormStarts p c s =
    ((s.modPort p (fun y => y.modPause c (fun a => { a with storm := true }))).raise (macSource p) 0x043 0
      (s.portGenOf p).toNat (p + 65536 * c)).discardToward p 36 [c] := by
  simp only [stormStarts, hx, hs, hd, Bool.not_true, Bool.false_eq_true, if_false, if_true]

theorem stormEnds_due {c t : Nat} (hs : (x.pauseOf c).storm = true) (hl : (x.pauseOf c).lastXoff = some t)
    (ht : t + 1000000 * fld x.guard 47 34 ≤ s.tbNs) :
    stormEnds p c s = s.modPort p (fun y => y.modPause c (fun a => { a with storm := false })) := by
  simp only [stormEnds, hx, hs, hl]
  exact if_pos (by simpa [State.reached, wdRecover] using ht)

theorem repeatXoff_due {c t : Nat} (hp : (x.ipcOf c).paused = true) (hb : bitAt x.cfg (32 + c) = true)
    (hl : (x.ipcOf c).xoffNs = some t) (ht : t + quantaNs x 65535 / 2 ≤ s.tbNs) : repeatXoff p c s = s.sendPause p c true := by
  have hlast : lastXoffSent x c = some t := (if_pos hb).trans hl
  simp only [repeatXoff, hx, hlast]
  exact if_pos (by simp [hp, lossless, hb, ht])

end

/-- Settles O52: each row on a port that there is, by hold-down, the classes it honours, and its pause and storm times. -/
theorem pauseRowsComplete : Obligations.PauseRowsComplete := by
  unfold Obligations.PauseRowsComplete
  refine ⟨?held, fun s p x hx hm hh => ⟨?pfc, ?pause⟩, ?rows⟩
  case held =>
    rintro s p x hx hm hh en qs qu n t rfl
    exact ⟨next_eq (takePfc_held hx hm hh en qs n), next_eq (takePause_held hx hm hh qu n)⟩
  case pfc =>
    intro en qs n t honoured hon ht
    have hrow := takePfc_consumed hx hm hh en qs n hon ht
    refine ⟨fun ha => next_eq (hrow.trans (if_pos ha)), fun ha => next_eq (hrow.trans (if_neg ?_))⟩
    rw [ha]
    exact Bool.false_ne_true
  case pause =>
    rintro qu n t rfl
    have hrow := takePause_consumed hx hm hh qu n
    exact ⟨fun hb => next_eq (hrow.trans (if_neg (by simp [hb]))), fun hb => next_eq (hrow.trans (if_pos hb))⟩
  case rows =>
    exact fun s p c x hx => ⟨fun t hu ht => next_eq (pauseEnds_due hx hu ht), fun hs hd => next_eq (stormStarts_ignores hx hs hd),
      fun hs hd => next_eq (stormStarts_drops hx hs hd), fun t hs hl ht => next_eq (stormEnds_due hx hs hl ht),
      fun t hp hb hl ht => next_eq (repeatXoff_due hx hp hb hl ht)⟩

end Sys2Proof.Machine
end

section
/-! PROOFS. A received frame (R76 to R80), the rows of the switch core (R178, R184 to R186), and those of multicast and spill (R189
to R198). -/

namespace Sys2Proof.Machine

/-! ### A received frame -/

section
variable {s t : State} {rx : RxFrame} {x : Port} (hx : s.port rx.port.toNat = some x) (hm : macUp s rx.port.toNat = true)
  (ht : t = (s.countPort rx.port.toNat 32 rx.cwCorrected).countPort rx.port.toNat 33 rx.cwUncorrected)
include hx hm ht

theorem receive_fragment (hl : rx.bytes.length < 64) : receive rx s = t.countPort rx.port.toNat 2 1 := by
  subst ht
  simp only [receive, hx, hm, hl, Bool.not_true, Bool.false_eq_true, if_false, if_true]

theorem receive_error {n : Nat} (hl : 64 ≤ rx.bytes.length) (he : macError x rx = some n) : receive rx s =
    if !rx.started || beAt rx.bytes 12 2 == 0x8808 || (rxRefused (t.countPort rx.port.toNat n 1) rx.port.toNat x rx.hdrRate).isSome then
      t.countPort rx.port.toNat n 1
    else (t.countPort rx.port.toNat n 1).runPipe x { rx with bytes := rx.bytes.take (x.maxFrame + 1) } true := by
  subst ht
  simp only [receive, hx, hm, he, if_neg (Nat.not_lt.2 hl), Bool.not_true, Bool.false_eq_true, if_false]

theorem receive_control (hl : 64 ≤ rx.bytes.length) (he : macError x rx = none) (hc : beAt rx.bytes 12 2 = 0x8808) :
    receive rx s = t.macControl rx.port.toNat rx.bytes := by
  subst ht
  have hctl : (beAt rx.bytes 12 2 == 0x8808) = true := beq_iff_eq.2 hc
  simp only [receive, hx, hm, he, hctl, if_neg (Nat.not_lt.2 hl), Bool.not_true, Bool.false_eq_true, if_false, if_true]

theorem receive_refused {n : Nat} (hl : 64 ≤ rx.bytes.length) (he : macError x rx = none) (hc : beAt rx.bytes 12 2 ≠ 0x8808)
    (hr : rxRefused (t.countRx rx.port.toNat rx.bytes.length) rx.port.toNat x rx.hdrRate = some n) :
    receive rx s = (t.countRx rx.port.toNat rx.bytes.length).countPort rx.port.toNat n 1 := by
  subst ht
  have hctl : (beAt rx.bytes 12 2 == 0x8808) = false := beq_false_of_ne hc
  simp only [receive, hx, hm, he, hctl, hr, if_neg (Nat.not_lt.2 hl), Bool.not_true, Bool.false_eq_true, if_false]

theorem receive_runs (hl : 64 ≤ rx.bytes.length) (he : macError x rx = none) (hc : beAt rx.bytes 12 2 ≠ 0x8808)
    (hr : rxRefused (t.countRx rx.port.toNat rx.bytes.length) rx.port.toNat x rx.hdrRate = none) :
    receive rx s = (t.countRx rx.port.toNat rx.bytes.length).runPipe x rx false := by
  subst ht
  have hctl : (beAt rx.bytes 12 2 == 0x8808) = false := beq_false_of_ne hc
  simp only [receive, hx, hm, he, hctl, hr, if_neg (Nat.not_lt.2 hl), Bool.not_true, Bool.false_eq_true, if_false]

end

/-- Settles O53: the frame by its length, its error, its type, and what refuses it. -/
theorem frameReceiveCompletes : Obligations.FrameReceiveCompletes := by
  unfold Obligations.FrameReceiveCompletes
  rintro s t rx p x rfl hx hm ht
  refine ⟨fun hl => next_eq (receive_fragment hx hm ht hl), fun n hl he hs => next_eq ?_, fun n hl he hs hc => ?_,
    fun hl he hc => next_eq (receive_control hx hm ht hl he hc), ?good⟩
  · refine (receive_error hx hm ht hl he).trans (if_pos ?_)
    rcases hs with hs | hs <;> simp [hs]
  · have hrow := receive_error hx hm ht hl he
    refine ⟨fun hr => next_eq (hrow.trans (if_pos ?_)), fun hr => next_eq (hrow.trans (if_neg ?_))⟩
    · rw [Option.isSome_iff_ne_none.2 hr, Bool.or_true]
    · simp [hs, hc, hr]
  case good =>
    rintro u hl he hc rfl
    exact ⟨fun n hr => next_eq (receive_refused hx hm ht hl he hc hr), fun hr => next_eq (receive_runs hx hm ht hl he hc hr)⟩

/-! ### Grants, cells, planes and sequence time-outs -/

section
variable {s u : State} {p c sl : Nat} {x : Port} {ecc : BufEcc}

theorem giveGrant_serves (hx : s.port p = some x) (hm : s.mode = .run) (hc : x.egrCells + 4 ≤ x.cellsMax) (hf : 4 ≤ egrFree s (p / 64))
    (hg : grantOf s p x = some (c, sl)) (hu : u = (s.modPort p (fun y => { (y.modEgr c (fun e => { e with
      sliceTurn := (sl + 1) % 16 })) with grantTurn := (c + 1) % 8 })).bufFault sl false ecc) : giveGrant p ecc s =
    if badEcc ecc then u.dropHead (voqIndex sl p c) else State.sendGranted sl p c 4 u := by
  subst hu
  have hopen : (s.mode != .run || decide (x.cellsMax < x.egrCells + 4) || decide (egrFree s (p / 64) < 4)) = false := by
    simp [hm, hc, hf]
  simp only [giveGrant, hx, hopen, hg, Bool.false_eq_true, if_false]

end

theorem failPlane_fails {s : State} {q k : Nat} (hm : s.mode ≠ .reset) (hq : quadThere s q = true)
    (hd : bitAt (s.quad q).planesDown k = false) : failPlane q k s = ((s.loseInFlight (onPlane q k)).modQuad q (fun x => { x with
      planesDown := (s.quad q).planesDown ||| BitVec.ofNat 6 (2 ^ k) })).raise (0x2000 + 0x100 * q + k) 0x083
        (if (s.quad q).planesDown = 0 then 2 else 3) 1 k :=
  if_neg (by simp [hq, hd, hm])

theorem seqTimeout_late {s : State} {o i : Nat} {r : Reorder} {gone : List Frame} {t : Nat} {drop : Cell → Cell}
    (hr : r = (s.slice o).reorderOf i) (hw : r.waitNs = some t) (ht : t + 2000 < s.tbNs) (hg : gone = incomplete s o i)
    (hd : drop = (fun c => if c.inSlice.toNat == i && c.outSlice.toNat == o && gone.contains c.frame.carried then c.void else c)) :
    seqTimeout o i s = State.drainOrder o i (r.waiting.length + 1) (State.countSlice
      (foldNats (List.range 512) (fun a k => a.cutVoq gone (8192 * i + 512 * o + k)) (State.modReorder (State.egrGive
        { s with
          fabric := s.fabric.map drop
          ports := s.ports.map (fun e => (e.1, if e.1 / 64 = o then e.2.cutPartly i else e.2)) } o
          ((s.ports.map (fun e => if e.1 / 64 = o then e.2.partlyCells i else 0)).sum + r.mcCells)) o i
        (fun r => { r with
          next := (r.waiting.map (·.seq)).foldl min ((r.waiting.map (·.seq)).headD r.next), waiting := r.waiting.map drop, lost := []
          mcCells := 0, waitNs := none }))) o 281 gone.length) := by
  subst hd hg hr
  simp only [seqTimeout, hw, if_neg (Nat.not_le.2 ht)]

/-- Settles O54: each row under its condition. -/
theorem fabricRowsComplete : Obligations.FabricRowsComplete := by
  unfold Obligations.FabricRowsComplete
  refine ⟨?grant, fun s o i c hc => next_eq ?_, fun s q k => ⟨fun hk => if_pos hk, fun hk hm hq hd => ?_⟩,
    fun s o i r gone t drop hr hw ht hg hd => next_eq (seqTimeout_late hr hw ht hg hd)⟩
  case grant =>
    intro s u p x c sl ecc hx hm hc hf hg hu
    have hrow := giveGrant_serves hx hm hc hf hg hu
    exact ⟨fun he => next_eq (hrow.trans (if_neg (by simp [he]))), fun he => next_eq (hrow.trans (if_pos he))⟩
  · simp only [fabricArrival, hc]
  · exact (if_neg (Nat.not_le.2 hk)).trans (next_eq (failPlane_fails hm hq hd))

/-! ### Multicast passes and splits -/

section
variable {s u : State} {sl c : Nat} {f : Frame} {rest : List Frame} {g : List Nat}

theorem mcPass_grants (hf : ((s.slice sl).mcqOf c).frames = f :: rest) (hm : s.mode = .run)
    (hh : holdOver s sl ((s.slice sl).mcqOf c) = false) (hg : g = newGrants s ((s.slice sl).mcqOf c) f)
    (hu : u = (foldNats g (fun a e => a.egrTake e f.size) s).modMcq sl c (fun m => { m with
      granted := m.granted ++ g, firstGrant := if g.isEmpty then m.firstGrant else some (m.firstGrant.getD s.time.tb) }))
    (ecc : BufEcc) : mcPass sl c ecc s =
    if !((u.slice sl).mcqOf c).granted.isEmpty && passDue u ((u.slice sl).mcqOf c) f &&
        !(planesUp u sl ((u.slice sl).mcqOf c).granted).isEmpty then
      if badEcc ecc then (u.bufFault sl false ecc).mcSpoilt sl c f else (u.bufFault sl false ecc).pass sl c f
    else u := by
  subst hu hg
  have hopen : (s.mode != .run || holdOver s sl ((s.slice sl).mcqOf c)) = false := by simp [hm, hh]
  simp only [mcPass, hf, hopen, Bool.false_eq_true, if_false]

theorem mcSplit_splits (hf : ((s.slice sl).mcqOf c).frames = f :: rest) (hm : s.mode = .run)
    (hh : holdOver s sl ((s.slice sl).mcqOf c) = true) : mcSplit sl c s = ((f.pend.foldl (fun a e => a.splitCopy sl f e)
      (foldNats ((s.slice sl).mcqOf c).granted (fun a e => a.egrGive e f.size) s)).mcPop sl c).nextHead sl c := by
  have hopen : (s.mode != .run || !holdOver s sl ((s.slice sl).mcqOf c)) = false := by simp [hm, hh]
  simp only [mcSplit, hf, hopen, Bool.false_eq_true, if_false]

end

/-! ### Spill read-back -/

section
variable {s u : State} {sl : Nat} (hu : u = s.spillRefill (sl / 4))
include hu

theorem readVoq_empty {v : Nat} (ecc : SpillEcc) (hs : (u.voq v).spill = []) : readVoq sl v ecc s = s.modVoq v Voq.settled := by
  subst hu
  exact if_pos (List.isEmpty_iff.2 hs)

theorem readVoq_reads {t : State} {v k : Nat} {ecc : SpillEcc} {back lost : List Frame} (hst : (u.voq v).state = .spilling)
    (hs : (u.voq v).spill ≠ []) (ho : (u.voq v).onDieCells < 256) (hr : mayRead u sl (u.voq v).spill = true)
    (hres : readResult (u.voq v).spill ecc = (back, lost, k))
    (ht : t = (((u.spillRead (sl / 4) (reachedCells (back ++ lost) k)).loseCells (sl / 4) k).spillLost lost).spillFault (sl / 4) ecc) :
    readVoq sl v ecc s = ((back.foldl (fun a f => (a.readIn f).1.modVoq v (fun y => { y with
      onDie := y.onDie ++ [(a.readIn f).2] })) t).modVoq v (fun y => Voq.settled { y with
        spill := y.spill.drop (back ++ lost).length })).bufVote sl := by
  subst hu ht
  have hne : ((s.spillRefill (sl / 4)).voq v).spill.isEmpty = false := List.isEmpty_eq_false_iff.2 hs
  have hopen : (((s.spillRefill (sl / 4)).voq v).state != .spilling || decide (256 ≤ ((s.spillRefill (sl / 4)).voq v).onDieCells) ||
      !mayRead (s.spillRefill (sl / 4)) sl ((s.spillRefill (sl / 4)).voq v).spill) = false := by simp [hst, hr, ho]
  simp only [readVoq, hne, hopen, hres, Bool.false_eq_true, if_false]

variable {e c : Nat} {f : Frame} {rest : List Frame} (hf : mcrOf u sl e c = f :: rest) (hr : mayRead u sl [f] = true)
  (he : f.size ≤ egrFree u e) (hp : planesUp u sl [e] ≠ [])
include hf hr he hp

theorem readResidue_reads {ecc : SpillEcc} {buf : BufEcc} {b : State × Frame}
    (hbuf : (buf = .good ∧ (ecc = .good ∨ ∃ n, ecc = .corrected n)) ∨ ecc = .buffer buf)
    (hb : b = ((((u.spillRead (sl / 4) f.spillAt).spillFault (sl / 4) ecc).setMcr sl e c rest).bufFault sl false buf).readIn f) :
    readResidue sl e c ecc s = if badEcc buf then (b.1.countIn f 105).release b.2
      else (State.sendPass sl b.2 [e] (List.range f.size) (b.1.egrTake e f.size)).release b.2 := by
  have hopen : (!mayRead u sl [f] || decide (egrFree u e < f.size) || (planesUp u sl [e]).isEmpty) = false := by simp [hr, he, hp]
  subst hu hb
  rcases hbuf with ⟨rfl, rfl | ⟨n, rfl⟩⟩ | rfl
  · simp only [readResidue, hf, hopen, Bool.false_eq_true, if_false]
  · simp only [readResidue, hf, hopen, Bool.false_eq_true, if_false]
  · simp only [readResidue, hf, hopen, Bool.false_eq_true, if_false]

theorem readResidue_lost (n : BitVec 26) : readResidue sl e c (.dataLost n) s =
    ((u.spillRead (sl / 4) f.spillAt).spillLost [f]).setMcr sl e c rest := by
  have hopen : (!mayRead u sl [f] || decide (egrFree u e < f.size) || (planesUp u sl [e]).isEmpty) = false := by simp [hr, he, hp]
  subst hu
  simp only [readResidue, hf, hopen, Bool.false_eq_true, if_false]

theorem readResidue_unlinked (n : BitVec 26) (k : Nat) : readResidue sl e c (.linkLost n k) s =
    ((((u.spillRead (sl / 4) (reachedCells (f :: rest) k)).loseCells (sl / 4) k).spillLost (f :: rest)).spillFault (sl / 4)
      (.linkLost n k)).setMcr sl e c [] := by
  have hopen : (!mayRead u sl [f] || decide (egrFree u e < f.size) || (planesUp u sl [e]).isEmpty) = false := by simp [hr, he, hp]
  subst hu
  simp only [readResidue, hf, hopen, Bool.false_eq_true, if_false]

end

/-! ### Caddy -/

theorem refill_bursts {s : State} {q : Nat} (hr : (s.quad q).spillReady = true) (hc : Runs.count (s.quad q).caddy < 1024)
    (hn : 0 < Runs.count (s.quad q).ring) : refill q s = (s.modQuad q (fun y => y.refilled 1)).countQuad q 2 1 :=
  if_pos (by simp [hr, hc, hn])

theorem writeback_bursts {s : State} {q : Nat} (hr : (s.quad q).spillReady = true) (hc : 3072 < Runs.count (s.quad q).caddy) :
    writeback q s = (s.modQuad q (fun y => y.wroteBack 1)).countQuad q 3 1 :=
  if_pos (by simp [hr, hc])

/-- Settles O55: the pass and the split by MC_HOLD, read-back by what its request meets, and Caddy by its levels. -/
theorem multicastAndSpillComplete : Obligations.MulticastAndSpillComplete := by
  unfold Obligations.MulticastAndSpillComplete
  refine ⟨?pass, ?voq, ?residue, fun s q hr => ⟨fun hc hn => next_eq (refill_bursts hr hc hn), fun hc => next_eq (writeback_bursts hr hc)⟩,
    fun s q hb => next_eq (if_pos hb)⟩
  case pass =>
    refine fun s u sl c f rest g hf hm => ⟨fun hh hg hu => ?_, fun hh => next_eq (mcSplit_splits hf hm hh)⟩
    have hrow := mcPass_grants hf hm hh hg hu
    refine ⟨fun hn ecc => next_eq ((hrow ecc).trans (if_neg ?_)), fun hg hd hp ecc => ?_⟩
    · rcases hn with hn | hn | hn <;> simp [hn]
    · have hdue := (hrow ecc).trans (if_pos (by simp [hg, hd, hp]))
      exact ⟨fun hb => next_eq (hdue.trans (if_neg (by simp [hb]))), fun hb => next_eq (hdue.trans (if_pos hb))⟩
  case voq =>
    intro s u t sl w v k ecc back lost hv hu
    rw [hv]
    exact ⟨fun hs => next_eq (readVoq_empty hu ecc hs),
      fun hst hs ho hr hres ht => next_eq (readVoq_reads hu hst hs ho hr hres ht)⟩
  case residue =>
    refine fun s u sl e c f rest hu hf hr he hp => ⟨fun ecc buf b hbuf hb => ?_, fun n => next_eq (readResidue_lost hu hf hr he hp n),
      fun n k => next_eq (readResidue_unlinked hu hf hr he hp n k)⟩
    have hrow := readResidue_reads hu hf hr he hp hbuf hb
    exact ⟨fun hg => next_eq (hrow.trans (if_neg (by simp [hg]))), fun hg => next_eq (hrow.trans (if_pos hg))⟩

end Sys2Proof.Machine
end

section
/-! PROOFS. The transmit scheduler and MAC (R77, R178, R216), postcard frames (R340) and PTP_TX (R252). -/

namespace Sys2Proof.Machine

/-! ### The transmit scheduler -/

section
variable {s u : State} {p : Nat} {ar : BitVec 8} {x0 x y : Port} {sel : List Nat} (hx : s.port p = some x0) (hf : txFree s p x0 = true)
  (hu : u = foldNats classes (fun a c => State.dropUnfit ar p c (x0.egrOf c).queue.length a) s) (hy : u.port p = some y)
  (hs : sel = classes.filter (selectable u p y ar)) (hw : x = y.wake sel)
include hx hf hu hy hs hw

theorem decide1_none (pp : Nat) (hc : chooseClass x sel = none) : decide1 p pp ar s = u.modPort p (fun _ => x.remember sel) := by
  subst hu hw hs
  simp only [decide1, hx, hf, hy, hc, Bool.not_true, Bool.false_eq_true, if_false]

theorem decide1_starts (pp : Nat) {c : Nat} {e : EqFrame} {rest : List EqFrame} (hc : chooseClass x sel = some c)
    (hq : (x.egrOf c).queue = e :: rest) :
    decide1 p pp ar s = (u.startFrame p x c pp ar e rest).modPort p (fun z => z.remember sel) := by
  subst hu hw hs
  simp only [decide1, hx, hf, hy, hc, hq, Bool.not_true, Bool.false_eq_true, if_false]

end

/-! ### The end of a copy in transmission -/

section
variable {s u : State} {p : Nat} {ecc : BufEcc} {x : Port} {e : EqFrame}

theorem transmit_ends (cr : Bool) (hx : s.port p = some x) (ht : x.tx = some e) (hm : s.mode = .run)
    (he : e.frame.errored = true ∨ e.short = false) (hu : u = (s.bufFault (p / 64) true ecc).trueCharge p x e.frame) :
    transmit p ecc cr s =
      if badEcc ecc then
        if cr then ((u.countIn e.frame 105).endCopy p x).txDone p else ((u.countIn e.frame 105).lostOwn e.frame).txDone p
      else if e.frame.errored || x.txTrunc.isSome then (u.endCopy p x).txDone p
      else if x.txMax < e.frame.bytes.length then
        if e.frame.cutThrough then (u.endTx p).txDone p else ((u.countPort p 22 1).lostOwn e.frame).txDone p
      else u.sendWhole p x e.frame := by
  subst hu
  have hopen : (s.mode != .run || (!e.frame.errored && e.short)) = false := by
    rcases he with he | he <;> simp [hm, he]
  simp only [transmit, hx, ht, hopen, Bool.false_eq_true, if_false]

end

/-! ### Postcard frames and PTP_TX -/

theorem postcardFrame_due {s u t : State} {sl : Nat} {x : Slice} {sent : Bool} (hx : x = s.slice sl) (hm : s.mode = .run)
    (hon : bitAt x.pcCfg 63 = true) (hq : x.pcQueue ≠ [])
    (hdue : 64 ≤ x.pcQueue.length ∨ ∃ r rest, x.pcQueue = r :: rest ∧ r.2 + 10000 ≤ s.tbNs)
    (hu : u = s.modSlice sl (fun y => { y with pcQueue := y.pcQueue.drop 64, pcSeq := y.pcSeq + 1 }))
    (ht : u.admitPostcard sl (postcardBatch s sl (x.pcQueue.take 64)) = (t, sent)) :
    postcardFrame sl s = if sent then t.countSlice sl 352 1 else t.countSlice sl 353 (x.pcQueue.take 64).length := by
  subst hx hu
  have hready : (decide (64 ≤ (s.slice sl).pcQueue.length) ||
      s.reached ((s.slice sl).pcQueue.head?.map (fun r => r.2 + 10000))) = true := by
    rcases hdue with hl | ⟨r, rest, hr, hl⟩
    · rw [decide_eq_true hl, Bool.true_or]
    · simp [hr, State.reached, hl]
  have hopen : (s.mode != .run || !bitAt (s.slice sl).pcCfg 63 || (s.slice sl).pcQueue.isEmpty || !(decide
      (64 ≤ (s.slice sl).pcQueue.length) || s.reached ((s.slice sl).pcQueue.head?.map (fun r => r.2 + 10000)))) = false := by
    rw [hready, hm, hon, List.isEmpty_eq_false_iff.2 hq]
    rfl
  unfold postcardBatch at ht
  simp only [postcardFrame, hopen, ht, Bool.false_eq_true, if_false]

theorem ptpSend_down {s : State} {p : Nat} (len : Nat) (kind : FrameKind) (cls : Nat) (bs : List Byte) (hl : linkUp s p = false) :
    ptpSend p len kind cls (some bs) s = .fail .linkDown s := if_pos (by simp [hl])

theorem ptpSend_up {s : State} {p : Nat} (len : Nat) (kind : FrameKind) (cls : Nat) (bs : List Byte) (hl : linkUp s p = true) :
    ptpSend p len kind cls (some bs) s = .wait (s.toEq p cls (ownFrame kind (bs.take len) cls) (BitVec.ofNat 4 (p / 64))) :=
  if_neg (by simp [hl])

/-- Settles O56: the decision by the class it chooses, the copy by its errors and length, and the device's own frames by their
ports. -/
theorem transmitRowsComplete : Obligations.TransmitRowsComplete := by
  unfold Obligations.TransmitRowsComplete
  refine ⟨?decision, ?copy, ?postcard, ?ptp⟩
  case decision =>
    exact fun s u p pp ar x x0 y sel hx hf hu hy hs hw => ⟨fun hc => next_eq (decide1_none hx hf hu hy hs hw pp hc),
      fun c e rest hc hq => next_eq (decide1_starts hx hf hu hy hs hw pp hc hq)⟩
  case copy =>
    intro s u p ecc cr x e hx ht hm he hu
    have hrow := transmit_ends cr hx ht hm he hu
    have hgood : badEcc ecc = false → e.frame.errored = false → x.txTrunc = none → transmit p.toNat ecc cr s =
        if x.txMax < e.frame.bytes.length then
          if e.frame.cutThrough then (u.endTx p.toNat).txDone p.toNat
          else ((u.countPort p.toNat 22 1).lostOwn e.frame).txDone p.toNat
        else u.sendWhole p.toNat x e.frame := fun hb hn hk =>
      hrow.trans ((if_neg (by simp [hb])).trans (if_neg (by simp [hn, hk])))
    refine ⟨?_, ?_, fun hb hend => next_eq (hrow.trans ((if_neg (by simp [hb])).trans (if_pos ?_))), ?_, ?_, ?_⟩
    · rintro hb rfl
      exact next_eq (hrow.trans ((if_pos hb).trans (if_neg Bool.false_ne_true)))
    · rintro hb rfl
      exact next_eq (hrow.trans ((if_pos hb).trans (if_pos rfl)))
    · rcases hend with hend | hend
      · rw [hend, Bool.true_or]
      · rw [Option.isSome_iff_ne_none.2 hend, Bool.or_true]
    · exact fun hb hn hk hl hc => next_eq ((hgood hb hn hk).trans ((if_pos hl).trans (if_neg (by simp [hc]))))
    · exact fun hb hn hk hl hc => next_eq ((hgood hb hn hk).trans ((if_pos hl).trans (if_pos hc)))
    · exact fun hb hn hk hl => next_eq ((hgood hb hn hk).trans (if_neg (Nat.not_lt.2 hl)))
  case postcard =>
    exact fun s u t sl x sent hx hm hon hq hdue hu ht => next_eq (postcardFrame_due hx hm hon hq hdue hu ht)
  case ptp =>
    rintro s u sub e f buf h len po co c m ref bs p rfl ha hb
    refine ⟨acting_fail ha rfl hb rfl rfl, fun hl => ?_, fun hl => ?_⟩
    · have hact := ptpSend_down len.toNat (.ptpTx sub.queue sub.index m po.toNat co.toNat ref) c.toNat bs hl
      exact acting_fail ha rfl hb rfl hact
    · have hact := ptpSend_up len.toNat (.ptpTx sub.queue sub.index m po.toNat co.toNat ref) c.toNat bs hl
      exact acting_wait ha rfl hb rfl hact

end Sys2Proof.Machine
end

section
/-! PROOFS. The audit commands and rows (R267 to R276, R281), snapshots and sampling counters (R329, R335 to R337), and register
writes to an absent unit (R4). -/

namespace Sys2Proof.Machine

/-! ### The audit commands -/

section
variable {s : State} {c : Nat}

theorem bufPost_full (addr : Addr) (len : BitVec 32)
    (h : 64 ≤ (s.chain c).posted.length + (if (s.chain c).buf.isSome then 1 else 0)) : bufPost addr len c s = .fail .noRoom s :=
  if_pos h

theorem bufPost_ok (addr : Addr) (len : BitVec 32)
    (h : (s.chain c).posted.length + (if (s.chain c).buf.isSome then 1 else 0) < 64) : bufPost addr len c s =
    .ok 0 (s.modChain c (fun x => Chain.touch (hostExport s) s.tbNs { x with posted := x.posted ++ [(addr, len.toNat)] })) :=
  if_neg (Nat.not_le.2 h)

end

/-- Settles O57: each command's rule, and the post by the buffers that its chain has. -/
theorem auditCommandsComplete : Obligations.AuditCommandsComplete := by
  unfold Obligations.AuditCommandsComplete
  refine ⟨fun s u sub e f buf len h ha hl => acting_ok h rfl ?cert rfl rfl, ?post, fun s u sub e f c hc => ?_⟩
  case cert => simpa [ha] using hl
  case post =>
    rintro s u sub e f addr len c n h ha hl h1 h2 hc rfl
    have hin : inRange len.toNat 4096 1048576 = true := (inRange_iff ..).2 ⟨h1, h2⟩
    have hbad : (addr.toNat % 4096 != 0 || len.toNat % 4096 != 0 || !inRange len.toNat 4096 1048576) = false := by
      rw [ha, hl, hin]
      rfl
    have hthere : (!chainThere s c.toNat) = false := by rw [hc, Bool.not_true]
    exact ⟨fun hn => acting_fail h rfl hbad hthere (bufPost_full addr len hn),
      fun hn => acting_ok h rfl hbad hthere (bufPost_ok addr len hn)⟩
  · have hthere : (!chainThere s c.toNat) = false := by rw [hc, Bool.not_true]
    exact ⟨fun h => acting_ok h rfl rfl hthere rfl, fun h => acting_ok h rfl rfl hthere rfl⟩

/-! ### The audit rows -/

section
variable {s u : State} {c : Nat}

theorem countCp_open (hc : chainThere s c = true) (he : s.epochOpen = true) (hm : s.mode ≠ .lockout) : countCp c s = s.dueCp c :=
  if_pos (by simp [hc, he, hm])

theorem timerCp_due (hc : chainThere s c = true) (he : s.epochOpen = true) (hm : s.mode ≠ .lockout)
    (ht : (s.chain c).cpNs + 10000000 ≤ s.tbNs) : timerCp c s = s.checkpoint c true false :=
  if_pos (by simp [hc, he, hm, ht])

theorem signCp_signs {ok : Bool} {r : ARec} (hr : ((s.chain c).spool ++ (s.chain c).resSys).find? (fun r => !r.ready) = some r)
    (hc : chainThere s c = true) (hl : s.mode ≠ .lockout) (hm : s.mode ≠ .reset)
    (hu : u = s.modChain c (fun y => Chain.touch (hostExport s) s.tbNs
      (if (s.chain c).spool.any (fun r => !r.ready) then { y with spool := signFirst (ARec.sign ok) y.spool }
       else { y with resSys := signFirst (ARec.sign ok) y.resSys }))) : signCp c ok s =
    if !ok && !s.audit.signFailed then
      State.raise { u with audit := { u.audit with signFailed := !ok } } 0x1005 0x029 3 1 (c + 4 * (r.seq.toNat % 2 ^ 46))
    else { u with audit := { u.audit with signFailed := !ok } } := by
  subst hu
  have hopen : (!chainThere s c || s.mode == .lockout || s.mode == .reset) = false := by simp [hc, hl, hm]
  simp only [signCp, hr, hopen, Bool.false_eq_true, if_false]

theorem handBack_done {bad : SpoolErrors} {b : ExportBuf} {l : List ARec} (hb : (s.chain c).buf = some b) (hc : chainThere s c = true)
    (hh : s.hostUp = true) (he : hostExport s = true) (hd : bufDone s.tbNs b (s.chain c).forHost = true)
    (hp : s.canHold (fld s.audit.cfg 15 0) = true) (hl : l = fitting (b.len / 64) (s.chain c).forHost) : handBack c bad s =
    State.spoolErrors (State.agents (State.freeSlots (State.modChain ((State.postHeld (s.emit
      (.dma b.addr (recordBytes (asRead s l bad) ++ List.replicate (b.len - 64 * ARec.total l) 0))) (fld s.audit.cfg 15 0) 10 0 (pack 320
        [(63, 0, b.addr.toNat), (95, 64, ARec.total l), (159, 96, (l.head?.map (fun r => r.seq.toNat)).getD 0),
         (161, 160, c)])).bump (0x30 + c) 5 (ARec.total l)) c (fun y => { y with
      buf := none, spool := y.spool.map (fun r => if l.contains r then { r with hostTaken := true } else r) })) c)) c l bad := by
  subst hl
  have hopen : (!chainThere s c || !s.hostUp || !hostExport s || !bufDone s.tbNs b (s.chain c).forHost ||
      !s.canHold (fld s.audit.cfg 15 0)) = false := by simp [hc, hh, he, hd, hp]
  simp only [handBack, hb, hopen, Bool.false_eq_true, if_false]

theorem exportFrame_due {bad : SpoolErrors} {l : List ARec} (hl : l = fitting (expBatch s) (s.chain c).forPort) (hm : s.mode = .run)
    (hc : chainThere s c = true) (hp : portExport s = true) (hr : exportReady s = true) (hn : l ≠ [])
    (hd : batchDue s (s.chain c) l = true) : exportFrame c bad s =
    State.spoolErrors (State.toEq (s.modChain c (fun y => { y with
      spool := y.spool.map (fun r => if l.contains r then { r with portSent := some (s.chain c).exports } else r)
      exports := (s.chain c).exports + 1 })) (expPort s) (fld s.audit.cfg 54 52) (exportBatch s c l bad)
        (BitVec.ofNat 4 (expPort s / 64))) c l bad := by
  have hopen : (s.mode != .run || !chainThere s c || !portExport s || !exportReady s || l.isEmpty ||
      !batchDue s (s.chain c) l) = false := by simp [hm, hc, hp, hr, hn, hd]
  subst hl
  simp only [exportFrame, hopen, Bool.false_eq_true, if_false, exportBatch]

end

/-- Settles O58: each row at the condition under which its chain acts. -/
theorem auditRowsComplete : Obligations.AuditRowsComplete := by
  unfold Obligations.AuditRowsComplete
  refine ⟨fun s c hc he hm => ⟨next_eq (countCp_open hc he hm), fun ht => next_eq (timerCp_due hc he hm ht)⟩, ?signed,
    fun s c bad b l hb hc hh he hd hp hl => next_eq (handBack_done hb hc hh he hd hp hl),
    fun s c bad l hl hm hc hp hr hn hd => next_eq (exportFrame_due hl hm hc hp hr hn hd)⟩
  case signed =>
    intro s u c ok r hr hc hl hm hu
    have hrow := signCp_signs hr hc hl hm hu
    refine ⟨fun hok => next_eq (hrow.trans (if_neg ?_)), ?_⟩
    · rcases hok with hok | hok <;> simp [hok]
    · rintro rfl hf
      exact next_eq (hrow.trans (if_pos (by simp [hf])))

/-! ### Snapshots and sampling counters -/

section
variable {s : State} {i : Nat} {x : Sctr}

theorem crossing_reduces (hx : x = sctrOf s i) (hs : sliceThere s (i / 32) = true) (he : x.en = true)
    (ht : x.thresh.toNat ≤ x.count.toNat) : crossing i s =
    if x.armed then (s.setSctr i { x with count := x.count - x.thresh }).countSlice (i / 32) (320 + i % 32) 1
    else s.setSctr i { x with count := x.count - x.thresh, armed := s.confRun } := by
  subst hx
  exact if_neg (by simp [hs, he, ht])

theorem capture_unfit {c : Capture} (hx : x = sctrOf s i) (hf : captureFits i x c = false) : capture i c s = s := by
  subst hx
  exact if_pos (by simp [hf])

theorem capture_posts {c : Capture} (hx : x = sctrOf s i) (ha : x.armed = true) (hc : s.confRun = true)
    (hf : captureFits i x c = true) : capture i c s = (if microcoded x.event then (s.setSctr i
      { x with armed := false }).sampleTrap (i / 32) c else s.setSctr i { x with armed := false }).postDropped
        x.queue.toNat 4 (mkHandle 1 13 i) (samplePayload s x c) := by
  subst hx
  exact if_neg (by simp [ha, hc, hf])

end

/-- Settles O59: the commands' rules, the crossing by whether a capture is armed, the capture by whether it fits. -/
theorem telemetryComplete : Obligations.TelemetryComplete := by
  unfold Obligations.TelemetryComplete
  refine ⟨?snapshot, ?set, fun s u sub e f h ha => acting_ok ha rfl rfl rfl rfl, ?crossing, ?capture⟩
  case snapshot =>
    intro s sub e buf first n h ha h1 h2 hp
    have hin : inRange n.toNat 1 256 = true := (inRange_iff ..).2 ⟨h1, h2⟩
    have hbad : (misaligned buf || !inRange n.toNat 1 256 || decide (65536 < first.toNat + n.toNat)) = false := by
      rw [ha, hin, decide_eq_false (Nat.not_lt.2 hp)]
      rfl
    exact ready_ok h rfl hbad rfl rfl
  case set =>
    intro s u sub e f h ev q en th ha hd h1 h2
    have hin : inRange th.toNat 1 (2 ^ 48 - 1) = true := (inRange_iff ..).2 ⟨h1, h2⟩
    have hbad : (!eventDefined ev || !inRange th.toNat 1 (2 ^ 48 - 1)) = false := by
      rw [hd, hin]
      rfl
    exact acting_ok ha rfl hbad rfl rfl
  case crossing =>
    intro s i x hx hs he ht
    have hrow := crossing_reduces hx hs he ht
    exact ⟨fun ha => next_eq (hrow.trans (if_pos ha)), fun ha => next_eq (hrow.trans (if_neg (by simp [ha])))⟩
  case capture =>
    exact fun s i c x hx ha hc => ⟨fun hf => next_eq (capture_unfit hx hf), fun hf => next_eq (capture_posts hx ha hc hf)⟩

/-! ### Register writes to an absent unit -/

/-- A write to an absent unit changes nothing, whole or partial. -/
theorem writeRegister_absent {s : State} {off : BitVec 24} (h : absentUnit s off.toNat = true) (en : BitVec 4) (v : BitVec 32) :
    writeRegister off en v s = s := if_pos (by rw [h, Bool.or_true])

/-- A fault that is raised is on its way to the collector. -/
theorem State.raise_ne (s : State) (source kind cls gen addr : Nat) : s ≠ s.raise source kind cls gen addr := by
  intro h
  have hlen := congrArg (fun t => t.faults.transit.length) h
  simp [State.raise] at hlen

/-- A CX-1024, of 8 slices, in CONFIGURE with its PCIe link up. -/
def eightSlices : State :=
  { State.reset with
    dev := { State.reset.dev with mode := .configure, pcieUp := true }
    fuses := { State.reset.fuses with member := 2 } }

theorem eightSlices_absent : eightSlices.hostUp = true ∧ absentUnit eightSlices (0xF80000 : BitVec 24).toNat = true := by decide

/-- Refutes O60: a partial write in the window of slice 15 of a CX-1024, which has 8 slices, is discarded without a fault (R4), where
the statement has it raise BAR_ACCESS. -/
theorem not_registerWritesComplete : ¬ Obligations.RegisterWritesComplete := by
  unfold Obligations.RegisterWritesComplete
  rintro ⟨_, hwrites, _⟩
  obtain ⟨hup, habsent⟩ := eightSlices_absent
  obtain ⟨hpartial, _⟩ := hwrites eightSlices 0xF80000 0 hup
  have hraised := hpartial 0 (.inl (by decide))
  have hkept : exec (.registerWrite 0xF80000 0 0) eightSlices = .next eightSlices := next_eq (writeRegister_absent habsent 0 0)
  exact State.raise_ne _ _ _ _ _ _ (Host.Outcome.next.inj (hkept.symm.trans hraised))

end Sys2Proof.Machine
end
